-- ==== Sys2Proof/Word.lean ====
section
/-!
DEFINITION. The word types of the KL-9630 and their plainest arithmetic (R7, R8, R9, R119).
-/
namespace Sys2Proof

/-- A byte of 8 bits (R7). -/
abbrev Byte := BitVec 8
/-- A word of 32 bits (R7): the widest parameter value (R286). -/
abbrev Word := BitVec 32
/-- A byte string, byte 0 first (R8). -/
abbrev Bytes := List Byte
/-- A time on the device time base, in nanoseconds (R352). -/
abbrev Time := Nat
/-- A tile position T0 to T7 (R11). -/
abbrev Tile := Fin 8
/-- A host context CTX0 to CTX7 (R253). -/
abbrev Ctx := Fin 8

/-- The rounding function rnd of R119: n/d rounded half away from zero. -/
def rnd (n : Int) (d : Nat) : Int :=
  n.sign * (((2 * n.natAbs + d) / (2 * d) : Nat) : Int)

/-- Saturation to a closed range (R120). -/
def clampI (lo hi v : Int) : Int := if v < lo then lo else if hi < v then hi else v

/-- Bits hi..lo of a number (R6). -/
def bitsOf (v hi lo : Nat) : Nat := v / 2 ^ lo % 2 ^ (hi + 1 - lo)

/-- One bit of a number. -/
def bitOf (v i : Nat) : Bool := v / 2 ^ i % 2 == 1

/-- A two's complement field of w bits read as a signed number (R9). -/
def signed (w v : Nat) : Int :=
  if v % 2 ^ w < 2 ^ (w - 1) then ((v % 2 ^ w : Nat) : Int) else ((v % 2 ^ w : Nat) : Int) - ((2 ^ w : Nat) : Int)

/-- A signed number as a two's complement field of w bits (R9). -/
def unsigned (w : Nat) (v : Int) : Nat := (v % ((2 ^ w : Nat) : Int)).toNat

/-- A count that stops at a ceiling and never wraps (R45, R120). -/
def satAdd (top a b : Nat) : Nat := if a + b < top then a + b else top

/-- The number of a set of Booleans, bit 0 first. -/
def maskOf : List Bool → Nat
  | [] => 0
  | b :: bs => (if b then 1 else 0) + 2 * maskOf bs

/-- n bytes of a number, least significant first (R8). -/
def leBytes : Nat → Nat → Bytes
  | 0, _ => []
  | n + 1, v => BitVec.ofNat 8 v :: leBytes n (v / 256)

/-- n bytes of a number, most significant first (the byte order of the named standards, R8). -/
def beBytes (n v : Nat) : Bytes := (leBytes n v).reverse

/-- The number that a little-endian byte string holds (R8). -/
def leNat : Bytes → Nat
  | [] => 0
  | b :: bs => b.toNat + 256 * leNat bs

/-- n bytes from offset o of a byte string, zero where it is shorter. -/
def sliceB (o n : Nat) (b : Bytes) : Bytes :=
  let r := (b.drop o).take n
  r ++ List.replicate (n - r.length) 0

/-- The little-endian number in n bytes from offset o. -/
def leAt (b : Bytes) (o n : Nat) : Nat := leNat ((b.drop o).take n)

/-- A byte string brought to exactly n bytes: cut, or filled with zero bytes. -/
def padTo (n : Nat) (b : Bytes) : Bytes := sliceB 0 n b

/-- The ASCII bytes of a text. -/
def ascii (s : String) : Bytes := s.toList.map fun c => BitVec.ofNat 8 c.toNat

/-- The smallest multiple of m at or above n. -/
def roundUp (m n : Nat) : Nat := (n + m - 1) / m * m

end Sys2Proof
end

