-- ==== Sys2Proof/Syntax.lean ====
section
/-!
DEFINITION. The commands and events the device takes: one constructor of Instr for each row of
spec/opcode_table.json, in the table's order. The operand t of every row is the instant of the event on the
device time base (R352). The other operands are what reaches the device from outside: pin levels, measured values,
bytes that the device reads from host memory, flits, and the choice of the command in flight that acts. A host command that
reads its scatter area takes the area's bytes, and one that writes it takes the area's length: the scatter list itself
stands in host memory (Table 9.8).
-/
namespace Sys2Proof

/-- The three PLLs (Table 12.2). -/
inductive Pll where | a | c | m
deriving DecidableEq, Repr

/-- The two frequency references: PLL_A's source, and PCIE_REFCLK, which feeds PLL_C and PLL_M (R355). -/
inductive RefIn where | pllA | pcie
deriving DecidableEq, Repr

/-- The supplies that the brown-out detectors watch (R368). -/
inductive Rail where | vddC | vddF | vddio18
deriving DecidableEq, Repr

/-- The bias outputs of a tile, in the bit order of BIAS_STATUS (Table 2.9). -/
inductive BiasOut where | vdet | vskim | vguard
deriving DecidableEq, Repr

/-- A receiving side of a flit link: guyline F to C, guyline C to F, Vexnex from the peer (R41, R325). -/
inductive LinkDir where | fc | cf | vx
deriving DecidableEq, Repr

/-- The two sideband wires (Table 1.7). -/
inductive Wire where | fc | cf
deriving DecidableEq, Repr

/-- The outcome of training one memory channel (R296). -/
inductive ChanTrain where | failed | trained | derated
deriving DecidableEq, Repr

/-- A read, or a write of a word, on the data port (R292). -/
inductive DpAccess where
  | read
  | write (w : Word)
deriving DecidableEq, Repr

/-- The output cells of the boundary register (R411), by the signals of Table 12.7; a bit or a Bool is a level, high 1. The bias outputs
have no cell. -/
structure Cells where
  ten : BitVec 8
  tclk : BitVec 8
  tsync : BitVec 8
  trow : BitVec 8
  tintS : BitVec 8
  tintL : BitVec 8
  flyA : BitVec 8
  flyB : BitVec 8
  town : BitVec 8
  sel : BitVec 4
  selEn : Bool
  sck : BitVec 2
  sdo : BitVec 2
  prdy : BitVec 2
  alive : Bool
  peerRst : Bool
  memReset : Bool
  memClock : Bool
  flashCs : Bool
  pcieTx : BitVec 8
  vxTx : BitVec 8
  out0 : BitVec 5
  out1 : BitVec 5
  flash : BitVec 10
  memBus : BitVec 280
deriving DecidableEq, Repr

/-- The levels that a capture of the boundary register finds on the balls of Table 15.1 whose levels State does not hold: inputs of the
device (tile ports, peg ports, the straps, REFCLK_IN, PCIe and Vexnex receivers, PAIR_ALIVE_I, OSPI_DQS), and the lanes and buses that are
in operation (PCIe, Vexnex, OUT0 and OUT1 with four data lanes and the clock, OSPI_SCLK, OSPI_DQ and OSPI_RESET_N, and the memory channels
but for their CK). -/
structure Scan where
  tpClk : BitVec 8
  tpD : BitVec 128
  tpLv : BitVec 8
  pegSck : BitVec 2
  pegSdi : BitVec 2
  pegPrdy : BitVec 2
  pegSsN : BitVec 2
  straps : BitVec 4
  refclk : Bool
  pcieRx : BitVec 8
  vxRx : BitVec 8
  aliveIn : Bool
  flashDqs : Bool
  pcieTx : BitVec 8
  vxTx : BitVec 8
  out0 : BitVec 5
  out1 : BitVec 5
  flash : BitVec 10
  memBus : BitVec 280
deriving DecidableEq, Repr

/-- The JTAG instructions of R411 and R412. Those that capture the boundary register carry what the capture finds on the pins, and
SAMPLE/PRELOAD what is shifted into the register. -/
inductive TapInstr where
  | bypass | idcode | samplePreload (seen : Scan) (load : Cells) | extest (seen : Scan) | clamp | highz | extestPulse (seen : Scan)
  | extestTrain (seen : Scan) | dbgAccess | other
deriving DecidableEq, Repr

/-- The requests of a debug access (R414). -/
inductive DbgReq where
  | counter (u : Fin 16) (j : Fin 9)
  | mem (a : Nat)
  | param (id : Nat)
  | coreReg (c : Fin 4) (r : Nat)
  | halt (c : Fin 4)
  | step (c : Fin 4)
  | resume (c : Fin 4)
  | breakpoint (c : Fin 4) (a : Nat)
deriving DecidableEq, Repr

/-- A BAR0 or BAR2 register whose write only stores a value (Table 9.5, Table 9.21). -/
inductive BarReg where
  | sqBase | sqSize | cqBase | cqSize | eqBase | eqSize | irqStatus | irqMask | dpAddr | dpStatus
deriving DecidableEq, Repr

/-- What the peer's side of a pair join presents to the checks of Table 11.4: its identity public key, its ephemeral key and its
signature among them. -/
structure PeerJoin where
  joined : Bool
  sole : Bool
  devId : Bytes
  peerId : Bytes
  identity : Bytes
  ephemeral : Bytes
  sig : Bytes
  ownerHashes : List Bytes
  revision : Nat
  fwVersion : Nat
  memGib : Nat
  rolePref : Nat
  nextFrame : Nat
deriving DecidableEq, Repr

/-- A heartbeat (R338, R339): what it carries, and whether its GCM tag verified (R326). -/
structure Heartbeat where
  frame : Nat
  state : Nat
  stage : Nat
  leaving : Bool
  cause : Nat
  tagOk : Bool
deriving DecidableEq, Repr

/-- The LEAD's tick message (R329). -/
structure TickMsg where
  frame : Nat
  numbered : Bool
  ts : Time
  tickState : Nat
  d2 : Bool
  grants : Nat
  tagOk : Bool
deriving DecidableEq, Repr

/-- A message of the peer as it arrives: whether its tag verifies under the link key, and what it says (R326). -/
structure Sealed (α : Type) where
  ok : Bool
  body : α
deriving DecidableEq, Repr

/-- The drift mirror items of Table 11.8: an SHO transfer with its candidate list, or part of a DPR snapshot. -/
inductive MirrorItem where
  | sho (pix : Nat) (recs : List Word) (cands : Bytes) (last : Bool)
  | snapshot (pix : Nat) (recs : List Word)
deriving DecidableEq, Repr

/-- A handover message: the giver has dropped TOWN of tiles (R345), or the peer asks for every tile (R346). -/
inductive HandoverMsg where
  | given (tiles : BitVec 8)
  | asked
deriving DecidableEq, Repr

/-- What crosses the pair link for a forwarding context or its partner (R342): a reply or an event of the partner context, a command
for a context bound with code 11 as its header bytes and its inline bytes, and the reset of such a context. -/
inductive FwdMsg where
  | reply (bytes : Bytes)
  | event (bytes : Bytes)
  | command (header payload : Bytes)
  | reset
deriving DecidableEq, Repr

/-- Parameter traffic of a pair (R331): values; the staged shared values of a commit of the LEAD, under the commit's number; the PARTNER's
mask for it; the LEAD's decision, and whether it holds for the coming tick or, where no tick comes, at once; the generations that a join
passes (R344); flysheet requests on tiles of the receiver, and the end of such a request (R337). -/
inductive SyncMsg where
  | values (entries : List (Nat × Word))
  | commit (id : Nat) (entries : List (Nat × Word))
  | verdict (id mask : Nat)
  | decide (id : Nat) (ok atTick : Bool)
  | gens (tags : List (Nat × Nat))
  | cycle (tiles : BitVec 8) (force clear : Bool)
  | uncycle (tiles : BitVec 8)
  | inhibit (tiles : BitVec 8) (delay len : Nat)
deriving DecidableEq, Repr

/-- The transfer of a bundle (R335): the header, plaintext, its end; the PARTNER's status; and the word that both activate at the
next tick. -/
inductive BundleMsg where
  | header (b : Bytes)
  | data (b : Bytes)
  | finish
  | result (status : Nat)
  | activate
deriving DecidableEq, Repr

/-- The commands and events of spec/opcode_table.json. -/
inductive Instr where
  | porstNAssert (t : Time) (low : Nat)
  | porstNRelease (t : Time) (oscSettle refsel : Fin 4) (pufOk : Bool)
  | brownOut (t : Time) (rail : Rail) (dur : Nat)
  | powerLoss (t : Time)
  | oscSettleExpiry (t : Time)
  | crystalCheckDone (t : Time) (kHz : Nat)
  | guylineTrainDone (t : Time) (lanesFC lanesCF : Nat)
  | memoryTrainDone (t : Time) (gib : Nat) (flashOk : Bool) (chans : List (ChanTrain × Nat))
  | bootImageStart (t : Time)
  | pfwNAssert (t : Time) (low : Nat)
  | pfwNRelease (t : Time) (high : Nat)
  | functionLevelReset (t : Time) (fn : Fin 8)
  | hotReset (t : Time)
  | referenceLost (t : Time) (r : RefIn)
  | referenceRestored (t : Time) (r : RefIn)
  | clockSwitchDone (t : Time) (p : Pll)
  | rcTrimMeasurement (t : Time) (count : Nat)
  | internalTick (t : Time)
  | fsyncEdge (t : Time) (samples : List Bool)
  | fsyncDeadlineMissed (t : Time)
  | freeRunTick (t : Time)
  | frameStartMessage (t : Time) (frame : Nat) (ts : Time)
  | slotStart (t : Time) (taps : List (List Nat))
  | pointerReset (t : Time) (tile : Tile)
  | leadSlotStart (t : Time)
  | cutTime (t : Time)
  | frameClose (t : Time)
  | mosaicRowComplete (t : Time) (y : Nat)
  | deliveryDone (t : Time) (x : Ctx)
  | portImageDone (t : Time) (p : Fin 2)
  | tileWakeExpiry (t : Time) (tile : Tile)
  | biasDacUpdate (t : Time)
  | biasSettleExpiry (t : Time) (tile : Tile) (o : BiasOut)
  | biasFault (t : Time) (tile : Tile) (o : BiasOut)
  | tileFault (t : Time) (tile : Tile)
  | tenOffExpiry (t : Time) (tile : Tile)
  | biasCodeWrite (t : Time) (tile : Tile) (o : BiasOut) (code : BitVec 16)
  | tpFvRise (t : Time) (tile : Tile) (clk10kHz : Nat)
  | digitalLine (t : Time) (tile : Tile) (words : List (BitVec 16))
  | tpFvFall (t : Time) (tile : Tile)
  | tpClkStop (t : Time) (tile : Tile)
  | adcRefenWrite (t : Time) (v : Bool)
  | refReadyExpiry (t : Time)
  | hkRoundDue (t : Time)
  | hkEntryDone (t : Time) (volts : List Nat)
  | hkInjFireWrite (t : Time) (v : BitVec 4)
  | cDieSensorMeasure (t : Time) (vals : List Nat)
  | hkQueueRead (t : Time) (x : Ctx)
  | hkQEnWrite (t : Time) (v : Bool)
  | throttleStage2Timer (t : Time)
  | thmResumeWrite (t : Time) (x : Ctx) (v : Bool)
  | flyPulseEnd (t : Time) (tile : Tile)
  | flyPosChange (t : Time) (tile : Tile) (level : Bool) (ts : Time)
  | closeTimeout (t : Time) (tile : Tile)
  | openTimeout (t : Time) (tile : Tile)
  | flysheetComputeDone (t : Time) (tile : Tile)
  | inhibitWindowOpen (t : Time) (tile : Tile)
  | inhibitWindowEnd (t : Time) (tile : Tile)
  | flyTmaxExpiry (t : Time) (tile : Tile)
  | calImportTmoExpiry (t : Time)
  | activationStart (t : Time)
  | activationCopyDone (t : Time) (ok : Bool)
  | activationHoldEnd (t : Time)
  | memoryTagFail (t : Time) (addr : Nat) (rereadOk : Bool)
  | sqTailDoorbell (t : Time) (x : Ctx) (tail : Nat) (slots : Bytes)
  | cqHeadDoorbell (t : Time) (x : Ctx) (head : Nat)
  | eqHeadDoorbell (t : Time) (x : Ctx) (head : Nat)
  | ringEnable (t : Time) (x : Ctx)
  | ringDisable (t : Time) (x : Ctx)
  | barRegisterWrite (t : Time) (x : Ctx) (r : BarReg) (v : BitVec 64)
  | irqHoldoffExpiry (t : Time) (x : Ctx) (vec : Fin 2)
  | commandTimeout (t : Time) (x : Ctx) (tag : BitVec 11)
  | dpDataAccess (t : Time) (x : Ctx) (a : DpAccess)
  | dpBurstAccess (t : Time) (x : Ctx) (off : Nat) (a : DpAccess)
  | pegCommandFrame (t : Time) (n : Fin 2) (frame : Bytes)
  | pegDataWriteFrame (t : Time) (n : Fin 2) (addr : Nat) (data : Bytes)
  | pegDataReadFrame (t : Time) (n : Fin 2) (addr count : Nat)
  | nop (t : Time) (x : Ctx) (tag : BitVec 11)
  | getInfo (t : Time) (x : Ctx) (tag : BitVec 11) (sg : Nat)
  | getRecovery (t : Time) (x : Ctx) (tag : BitVec 11) (sg : Nat)
  | resetContext (t : Time) (x : Ctx) (tag : BitVec 11)
  | abort (t : Time) (x : Ctx) (tag : BitVec 11)
  | eventArm (t : Time) (x : Ctx) (tag : BitVec 11)
  | paramRead (t : Time) (x : Ctx) (tag : BitVec 11) (sg : Nat)
  | paramWrite (t : Time) (x : Ctx) (tag : BitVec 11)
  | paramCommit (t : Time) (x : Ctx) (tag : BitVec 11)
  | commitEvaluation (t : Time)
  | commitNoTickTimeout (t : Time)
  | streamStart (t : Time) (x : Ctx) (tag : BitVec 11)
  | streamStop (t : Time) (x : Ctx) (tag : BitVec 11)
  | streamStopComplete (t : Time) (x : Ctx) (tag : BitVec 11)
  | bufferBind (t : Time) (x : Ctx) (tag : BitVec 11)
  | bufferRelease (t : Time) (x : Ctx) (tag : BitVec 11)
  | calImportBegin (t : Time) (x : Ctx) (tag : BitVec 11)
  | calImportChunk (t : Time) (x : Ctx) (tag : BitVec 11) (area : Bytes)
  | calImportEnd (t : Time) (x : Ctx) (tag : BitVec 11)
  | calStatus (t : Time) (x : Ctx) (tag : BitVec 11) (sg : Nat)
  | flyCycle (t : Time) (x : Ctx) (tag : BitVec 11)
  | flyInhibit (t : Time) (x : Ctx) (tag : BitVec 11)
  | driftStatus (t : Time) (x : Ctx) (tag : BitVec 11) (sg : Nat)
  | dataRead (t : Time) (x : Ctx) (tag : BitVec 11) (sg : Nat)
  | dataWrite (t : Time) (x : Ctx) (tag : BitVec 11) (area : Bytes)
  | nvRead (t : Time) (x : Ctx) (tag : BitVec 11) (sg : Nat)
  | nvWrite (t : Time) (x : Ctx) (tag : BitVec 11) (area : Bytes)
  | nvCommit (t : Time) (x : Ctx) (tag : BitVec 11)
  | nvUnlock (t : Time) (x : Ctx) (tag : BitVec 11)
  | nvAutocommitExpiry (t : Time)
  | nvCommitDone (t : Time) (retired recordFails : Nat)
  | ledgerRead (t : Time) (x : Ctx) (tag : BitVec 11) (sg : Nat)
  | ledgerClosePeriod (t : Time) (x : Ctx) (tag : BitVec 11)
  | ledgerHostTimeWrite (t : Time) (h : Word)
  | operatingMinute (t : Time)
  | ledgerSecond (t : Time)
  | authChallenge (t : Time) (x : Ctx) (tag : BitVec 11) (sg : Nat)
  | authResponse (t : Time) (x : Ctx) (tag : BitVec 11)
  | authChallengeExpiry (t : Time) (x : Ctx)
  | authLockoutEnd (t : Time) (x : Ctx)
  | attest (t : Time) (x : Ctx) (tag : BitVec 11) (sg : Nat)
  | ownerProvision (t : Time) (x : Ctx) (tag : BitVec 11)
  | fwDownload (t : Time) (x : Ctx) (tag : BitVec 11) (area : Bytes)
  | fwVerify (t : Time) (x : Ctx) (tag : BitVec 11)
  | fwActivate (t : Time) (x : Ctx) (tag : BitVec 11)
  | fwRestartDelay (t : Time)
  | fwConfirm (t : Time) (x : Ctx) (tag : BitVec 11)
  | fwConfirmTimeout (t : Time)
  | pairJoin (t : Time) (x : Ctx) (tag : BitVec 11) (peer : PeerJoin)
  | pairJoinTimeout (t : Time)
  | pairStatus (t : Time) (x : Ctx) (tag : BitVec 11) (sg : Nat)
  | pairHandover (t : Time) (x : Ctx) (tag : BitVec 11)
  | perfSnapshot (t : Time) (x : Ctx) (tag : BitVec 11) (sg : Nat)
  | snapshotWritten (t : Time)
  | sampleRead (t : Time) (x : Ctx) (tag : BitVec 11) (sg : Nat)
  | debugUnlock (t : Time) (x : Ctx) (tag : BitVec 11) (sg : Nat)
  | debugNonceExpiry (t : Time)
  | debugTimeExpiry (t : Time)
  | tapInstruction (t : Time) (ins : TapInstr)
  | dbgAccess (t : Time) (r : DbgReq)
  | lockRevoked (t : Time) (core : Fin 4) (lock : Fin 32)
  | auxSubmitWrite (t : Time) (x : Ctx) (cam : Fin 4) (v : Word)
  | auxProcessStart (t : Time)
  | auxFrameDone (t : Time)
  | replayStart (t : Time) (x : Ctx)
  | captureStart (t : Time) (x : Ctx)
  | replayStop (t : Time) (x : Ctx)
  | replayFrameStart (t : Time)
  | replayFrameDone (t : Time)
  | pegXferWrite (t : Time) (n : Fin 2) (v : BitVec 10)
  | pegPrdyHigh (t : Time) (n : Fin 2) (rx : Byte)
  | pegPrdyTimeout (t : Time) (n : Fin 2)
  | pegTransferDone (t : Time) (n : Fin 2)
  | pegSlaveByte (t : Time) (n : Fin 2) (rx : Byte)
  | pegSsNRise (t : Time) (n : Fin 2)
  | perfEvselWrite (t : Time) (u : Fin 16) (j : Fin 8) (v : Byte)
  | perfCtlWrite (t : Time) (u : Fin 16) (v : BitVec 6)
  | perfClearWrite (t : Time) (v : BitVec 16)
  | sampleCfgWrite (t : Time) (v : Byte)
  | linkFlitReceived (t : Time) (d : LinkDir) (flit : BitVec 256)
  | linkAckTimer (t : Time) (d : LinkDir)
  | linkAckTimeout (t : Time) (d : LinkDir)
  | linkReplayWindow (t : Time) (d : LinkDir)
  | linkRetrainDone (t : Time) (d : LinkDir) (lanesIn lanesOut : Nat) (lost : List Nat)
  | sidebandWordReceived (t : Time) (w : Wire) (word : BitVec 20)
  | class0Message (t : Time) (w : Wire) (num : BitVec 16) (code : BitVec 4) (detail : BitVec 6) (cause : Nat)
  | heartbeatSend (t : Time)
  | aliveWatchdogExpiry (t : Time)
  | heartbeatReceived (t : Time) (h : Heartbeat)
  | pairDetectionSample (t : Time) (lastEdge : Time)
  | pairTownRaise (t : Time)
  | peerRstRelease (t : Time)
  | pairTickMessage (t : Time) (m : TickMsg)
  | handoverMessage (t : Time) (m : Sealed HandoverMsg)
  | rowExchange (t : Time) (hdr : Sealed Bytes) (words : List (BitVec 64))
  | tileStateRecord (t : Time) (tile : Tile) (rec : Sealed Bytes)
  | driftMirror (t : Time) (tile : Tile) (item : Sealed MirrorItem)
  | forwardedReply (t : Time) (ok : Bool) (x : Ctx) (m : FwdMsg)
  | pairParamSync (t : Time) (ok : Bool) (m : SyncMsg)
  | pairBundleTransfer (t : Time) (ok : Bool) (m : BundleMsg)
  | pllLocked (t : Time) (p : Pll)
  | pciePerstNChange (t : Time) (high : Bool)
  | pegSsNFall (t : Time) (n : Fin 2)
  | ringDmaError (t : Time) (x : Ctx)
deriving DecidableEq, Repr

end Sys2Proof
end

