-- ==== Sys2Proof/Decode.lean ====
section
/-!
DEFINITION. The command that a table word spells. spec/opcode_table.json gives bits to none of its rows: every row is a
host command, a register access or an event of the device, so no word spells one. The host packet of Table 9.7, which
is what carries a command's opcode on the bus, is read in Machine/Operands.lean.
-/
namespace Sys2Proof

/-- The command that the low nbits bits of w spell: none, since no row of the table has bits. -/
def decodeTableWord (_nbits _w : Nat) : Option Instr := none

end Sys2Proof
end

