-- ==== Sys2Proof/Config.lean ====
section
/-!
DEFINITION. What the spec names without fixing its value: the cryptographic functions of named standards, the random
draws, the device's secrets, and the values that the spec leaves open. Each is a constant without a body: a claim about
the model holds whatever it is (log 2).
-/
namespace Sys2Proof.Config

/-- SHA-384 (R190, R220, R306), 48 bytes. -/
opaque sha384 : Bytes → Bytes
/-- HMAC-SHA-384 of a key and a message (R236), 48 bytes. -/
opaque hmac384 : Bytes → Bytes → Bytes
/-- HKDF-SHA-384 of a secret, a salt and an info text, to a length (R180, Table 10.6, R313). -/
opaque hkdf384 : Bytes → Bytes → Bytes → Nat → Bytes
/-- ECDSA P-384 verification of a public key, a SHA-384 digest and a signature (R188, R310, R312). -/
opaque ecdsaVerify : Bytes → Bytes → Bytes → Bool
/-- ECDSA P-384 signature of a SHA-384 digest under a private key, with a draw of the random source (R307, R312, R316), 96 bytes. -/
opaque ecdsaSign : Bytes → Bytes → Nat → Bytes
/-- The public key of a private key, an uncompressed SEC1 point (R306, R312), 97 bytes. -/
opaque p384Public : Bytes → Bytes
/-- Whether 97 bytes name a point of P-384. -/
opaque p384Valid : Bytes → Bool
/-- ECDH P-384 of a private key and a public key (R180, R313), 48 bytes. -/
opaque ecdh384 : Bytes → Bytes → Bytes
/-- AES-256-GCM opening of key, nonce, associated data, ciphertext and tag (R181); none where the tag fails. -/
opaque gcmOpen : Bytes → Bytes → Bytes → Bytes → Bytes → Option Bytes
/-- AES-256-GCM sealing of key, nonce, associated data and plaintext: the ciphertext followed by its tag (R326). -/
opaque gcmSeal : Bytes → Bytes → Bytes → Bytes → Bytes
/-- AES-256 in XTS mode, encrypting: the two keys as one, the tweak, and the data unit (R300). -/
opaque xtsEncrypt : Bytes → Nat → Bytes → Bytes
/-- AES-256-CMAC of a key and a message (R301). -/
opaque cmac : Bytes → Bytes → Bytes
/-- The temperature that the factory trim of an F-die sensor gives for a converter code, in units of 1/65536 degree (R102). -/
opaque sensorTrim : Nat → Nat → Int
/-- The random source: draw n, of a length (R302, R307, R312, R413). -/
opaque random : Nat → Nat → Bytes
/-- The root secret of the device (Table 10.6), and with it every device key. -/
opaque rootSecret : Bytes
/-- The root public key of the firmware signatures (Table 10.5). -/
opaque firmwareRoot : Bytes
/-- The free value with a number, of a width in bits: what the spec leaves open (log 2). -/
opaque freeValue : Nat → Nat → Nat
/-- A free choice between two outcomes that the spec leaves open (log 2). -/
opaque freeChoice : Nat → Bool
/-- Which of the two neighbours of an inexact ln (0) or exp (1) result stage 8 takes: both lie within the 1 ulp that R210
allows (log 2). -/
opaque ulpUp : Nat → Word → Bool
/-- The display level that linear gain control gives for levels lo and hi with hi not above lo, and a value q (R223). -/
opaque agcLevel : Nat → Nat → Nat → Nat
/-- The manufacturer's code in the ID code of the TAP (R411), 11 bits. -/
opaque polsiaCode : Nat
/-- What a register of a control core holds: core, register, and the halts and steps of the core so far (R414). -/
opaque coreRegister : Nat → Nat → Nat → Nat
/-- The control core that holds a hardware lock at an instant, by time and lock; 4 and above: none (R417). -/
opaque lockHolder : Nat → Nat → Nat
/-- Steps by which the RC trim code moves for a code step up: true if a higher code runs faster (R353). -/
opaque rcTrimRaisesRate : Bool

end Sys2Proof.Config
end

