-- ==== Sys2Proof/Machine/State.lean ====
section
/-!
DEFINITION. The state of the device, as plain data, and the state after reset. The docstring of a field gives its
width, the rule or table of spec/ that names it and its reset value. The parameters of Tables 1.2 to 14.5 that
hold a value of their own (RW, RWS and RC) stand in one register file, the field regs, keyed by parameter ID; the
read-only ones are computed from the fields below (Machine/ParamRead.lean).
-/
namespace Sys2Proof.Machine

/-- The status codes of Table 9.12. -/
inductive Status where
  | done | doneMarked | badOpcode | badParam | notPermitted | busy | staleGeneration | incoherent
  | aborted | failedFault | failedFailover | timeout | authFail | locked | nvFull | nvCommitFail | imageBad
  | rollbackRefused
deriving DecidableEq, Repr

/-- A reply of Table 9.9; PHASE is formed when it enters the completion ring. -/
structure Reply where
  tag : Nat
  status : Status
  early : Bool
  result : Nat
  time : Time
  phase : Bool
deriving DecidableEq, Repr

/-- An event record of Table 9.19. -/
structure Event where
  code : Nat
  phase : Bool
  seq : Nat
  time : Time
  frame : Nat
  detail : Bytes
deriving DecidableEq, Repr

/-- When an event was raised: the time base, and the frame number of the latest tick (Table 9.19). -/
structure Stamp where
  time : Time
  frame : Nat
deriving DecidableEq, Repr

/-- Why a started command has not completed yet. held: it has ended, and its core is halted (R416). -/
inductive Wait where
  | notStarted
  | commitDue
  | commitNv (txn : Option Nat) (vals : List (Nat × Word))
  | commitApply (vals : List (Nat × Word)) (since : Time)
  | streams (mask : Nat) (marked : Bool)
  | stopping (mask : Nat) (marked : Bool)
  | nv (txn : Nat) (result : Option Nat)
  | nvQueued (result : Option Nat)
  | nvRead (sg : Nat)
  | calNv (txn : Option Nat)
  | transfer (part : Nat) (txn : Option Nat)
  | download (part : Nat) (data : Bytes) (txn : Option Nat)
  | activation
  | fly (asked done moving aborted faulted : Nat)
  | flyClear (tiles : Nat)
  | peg (ports result : Nat)
  | snapshot
  | moving (done : Nat)
  | pairJoin (mode : Nat)
  | pairTick (mode : Nat)
  | pairHandover (mode : Nat)
  | aborting (tag : Nat)
  | resetting (target : Ctx) (aborted : Nat)
  | forwarded
  | held (st : Status) (result : Nat)
deriving DecidableEq, Repr

/-- A command in flight: a packet of Table 9.7 that has taken its tag (R267). order counts fetches device-wide. -/
structure Cmd where
  opcode : Nat
  tag : Nat
  ordered : Bool
  fence : Bool
  eventOnDone : Bool
  hseq : Nat
  deadline : Option Time
  sgAddr : Nat
  sgEntries : Nat
  payload : Bytes
  order : Nat
  fetched : Time
  sampled : Bool
  wait : Wait
deriving DecidableEq, Repr

/-- A host buffer of Table 9.15. -/
structure BufEntry where
  addr : Nat
  len : Nat
deriving DecidableEq, Repr

/-- The states of a buffer set (R280). -/
inductive SetState where | free | filling | held
deriving DecidableEq, Repr

/-- A buffer set: its state and its 20 entries; no entries when unbound (R279). -/
structure BufSet where
  state : SetState
  entries : List BufEntry
deriving DecidableEq, Repr

/-- A service grant that was accepted (Table 10.10). -/
structure Grant where
  epoch : Nat
  rights : Nat
  slot : Nat
  notAfter : Nat
deriving DecidableEq, Repr

/-- What authentication leaves (R313): MODE, the transcript hash T1, the frame key K, and a grant. -/
structure Auth where
  mode : Nat
  t1 : Bytes
  key : Bytes
  grant : Option Grant
deriving DecidableEq, Repr

/-- An outstanding challenge (R312, R313). draw names the device's random draw that gave DN and its ephemeral key. -/
structure Challenge where
  mode : Nat
  slot : Nat
  hn : Bytes
  he : Bytes
  dn : Bytes
  draw : Nat
  t1 : Bytes
  expires : Time
deriving DecidableEq, Repr

/-- A chain of R315 since its last seal: the value at that seal, the present value, the frames covered. -/
structure Chain where
  prev : Bytes
  head : Bytes
  first : Nat
  last : Nat
  count : Nat
deriving DecidableEq, Repr

/-- One ring of a context: base, size and the two indexes (Table 9.5). -/
structure Ring where
  base : Nat
  size : Nat
  head : Nat
  tail : Nat
  phase : Bool
deriving DecidableEq, Repr

/-- A delivery stream: a context's machine-vision stream or a port (R281). -/
structure Stream where
  /-- 1 bit; R281; reset 0. -/
  started : Bool
  /-- 1 bit, a start waits for its tick; R281; reset 0. -/
  starting : Bool
  /-- 1 bit, a stop takes effect at the next tick; R281; reset 0. -/
  stopping : Bool
  /-- 1 bit, the stop has taken effect and the last frame is still on its way; R281; reset 0. -/
  draining : Bool
  /-- 48 bits, the last frame of the stream; R281; reset 0. -/
  lastFrame : Nat
  /-- the chain of the stream; R315; reset none. -/
  chain : Option Chain
deriving DecidableEq, Repr

/-- A host context CTX0 to CTX7. -/
structure Context where
  /-- authentication; R256; reset none. -/
  auth : Option Auth
  /-- outstanding challenge; R313; reset none. -/
  challenge : Option Challenge
  /-- 4 bits, consecutive authentication failures; R313; reset 0. -/
  authFails : Nat
  /-- end of the challenge lockout; R313; reset none. -/
  lockUntil : Option Time
  /-- SQ_BASE 64 bits, SQ_SIZE 13 bits, SQ_HEAD and SQ_TAIL 12 bits; Table 9.5; reset 0. -/
  sq : Ring
  /-- CQ_BASE, CQ_SIZE, CQ_HEAD, CQ_TAIL, PHASE; Table 9.5, R264; reset 0. -/
  cq : Ring
  /-- EQ_BASE, EQ_SIZE, EQ_HEAD, EQ_TAIL, PHASE; Table 9.5, R264; reset 0. -/
  eq : Ring
  /-- RING_CTL, 1 bit; Table 9.5; reset 0. -/
  ringsOn : Bool
  /-- RING_STATUS[12:9], 4 bits, error cause, 0 none; Table 9.5; reset 0. -/
  ringErr : Nat
  /-- fetching has stopped until the rings are enabled again; R263; reset 0. -/
  fetchStop : Bool
  /-- the function cannot write host memory until the rings are enabled again; R259; reset 0. -/
  busOff : Bool
  /-- IRQ_STATUS, 3 bits; Table 9.5; reset 0. -/
  irqStatus : BitVec 3
  /-- IRQ_MASK, 3 bits; Table 9.5; reset 0b111. -/
  irqMask : BitVec 3
  /-- vectors 0 and 1 inside their holdoff; R266; reset 0. -/
  irqHold : BitVec 2
  /-- vectors 0 and 1 held back; R266; reset 0. -/
  irqBack : BitVec 2
  /-- when vectors 0 and 1 were last raised; R266; reset 0. -/
  irqAt : List Time
  /-- replies in the completion ring that the host has not freed, oldest first; R264; reset empty. -/
  replies : List Reply
  /-- event records in the event ring that the host has not freed, oldest first; R265; reset empty. -/
  events : List Event
  /-- 32 bits, SEQ of the next event; Table 9.19; reset 0. -/
  evtSeq : Nat
  /-- events lost and SEQ of the first of them, for the EVENTS_LOST record; R265; reset none. -/
  lost : Option (Nat × Nat)
  /-- code of a CONTEXT_RESET event held until the rings are enabled, and when it was raised; R259, Table 9.19; reset none. -/
  heldReset : Option (Nat × Stamp)
  /-- submission slots written by the host and not fetched yet; R263, R264; reset empty. -/
  sqSlots : Bytes
  /-- commands in flight, in fetch order; R267, R271; reset empty. -/
  inflight : List Cmd
  /-- staged parameter values by ID; R287, R289; reset empty. -/
  staged : List (Nat × Word)
  /-- HOST_EVT_MASK, 14 bits; R291; reset 0. -/
  evtMask : BitVec 14
  /-- buffer sets 0 to 15; R279; reset free and unbound. -/
  sets : List BufSet
  /-- overflow slot; R279; reset unbound. -/
  overflow : Option BufEntry
  /-- DP_ADDR, 64 bits; Table 9.21; reset 0. -/
  dpAddr : Nat
  /-- DP_STATUS, 2 bits; Table 9.21; reset 0. -/
  dpStatus : BitVec 2
  /-- the context's machine-vision stream; R281; reset not started. -/
  mv : Stream
  /-- next entry of the 256-entry seal log; R316; reset 0. -/
  sealNext : Nat
deriving DecidableEq, Repr

/-- The input levels of a capture of the boundary register (R411): from State FSYNC, the flysheet positions, the frame-valid inputs of
the digital ports, the selects of the peg ports (of a port in master mode what the capture finds), PORST_N, PFW_N and PCIE_PERST_N, and
the other balls as the capture finds them. -/
structure PinIns where
  fsync : Bool
  flyPos : BitVec 8
  fv : BitVec 8
  ssN : BitVec 2
  porst : Bool
  pfw : Bool
  perst : Bool
  other : Scan
deriving DecidableEq, Repr

/-- What the device has written to memory of the host, or returned on a bus read. The model's own record of output. A boundary entry is
a capture of the boundary register as it leaves on TDO, and a pegByte one byte that a peg port sends as master: the port, its select
code, the clock mode CPOL + 2 x CPHA, and the bits in the order of the wire, the first one in [7] (R391). A bufferRow is
the DMA write of a row at an offset of a buffer as the row completes; a buffer stands there once it is whole (R219). -/
inductive HostOut where
  | bufferRow (x : Ctx) (frame set entry offset : Nat) (data : Bytes)
  | scatter (x : Ctx) (tag : Nat) (data : Bytes)
  | buffer (x : Ctx) (frame set entry : Nat) (data : Bytes)
  | record (x : Ctx) (frame set : Nat) (data : Bytes)
  | overflowRecord (x : Ctx) (frame : Nat) (data : Bytes)
  | busRead (x : Ctx) (value : Word)
  | irq (x : Ctx) (vec : Nat)
  | pegFrame (n : Fin 2) (data : Bytes)
  | port (p : Fin 2) (vc : Nat) (typ : Nat) (data : Bytes)
  | deskew (p : Fin 2)
  | forward (x partner : Ctx) (opcode tag : Nat) (payload : Bytes)
  | pairReply (x : Ctx) (data : Bytes)
  | pairEvent (x : Ctx) (data : Bytes)
  | debug (value : Nat)
  | boundary (outs : Cells) (ins : PinIns)
  | pegByte (n : Fin 2) (select : Nat) (clock : Nat) (bits : Byte)
deriving DecidableEq, Repr

/-- The power and boot states of the device (R310, Table 12.7). -/
inductive Boot where
  | unpowered | inReset | rom | basecamp | running | dead
deriving DecidableEq, Repr

/-- A PLL: its CLK_STATE code, when a coast began, and of a switch its start, the time that the PLL takes to relock in ns, and, where
it ends a coast, the length of the coast in µs (R355, R357, R358, Table 12.8). -/
inductive PllState where
  | off | locked | coasting (since : Time) | switching (since : Time) (relock : Nat) (coast : Option Nat)
deriving DecidableEq, Repr

/-- The stages of the crystal check (R351). -/
inductive Crystal where
  | idle | settling (attempt : Nat) | comparing (attempt : Nat) | accepted | failed
deriving DecidableEq, Repr

/-- Clocks, straps, supplies and reset (chapter 12). -/
structure Clocks where
  /-- CLK_STRAPS[1:0], 2 bits; Table 12.1; reset as sampled, DESIGN CHOICE 0 before the first sample (log 4). -/
  oscSettle : Nat
  /-- CLK_STRAPS[3:2], 2 bits; Table 12.1; reset as sampled, DESIGN CHOICE 0 before the first sample (log 4). -/
  refsel : Nat
  /-- the crystal check; R351; reset idle. -/
  crystal : Crystal
  /-- PLL_A; R355; reset off. -/
  pllA : PllState
  /-- PLL_C; R355; reset off. -/
  pllC : PllState
  /-- PLL_M; R355; reset off. -/
  pllM : PllState
  /-- CLK_STATE[8:7], PLL_A source, 2 bits; Table 12.8; reset 2 (RC, Table 12.6 step 1). -/
  srcA : Nat
  /-- the source that PLL_A takes at the end of a switch; R358; reset 2. -/
  srcNext : Nat
  /-- CLK_RC_TRIM, 10 bits; R353; reset from OTP. -/
  rcTrim : Nat
  /-- CLK_RC_ERR, signed, 10 ppm; Table 12.8; reset 0. -/
  rcErr : Int
  /-- CLK_STATE[6], 1 bit; R353; reset 0. -/
  rcTrimmed : Bool
  /-- CLK_LOSS, 3 bits; Table 12.8; reset 0. -/
  loss : BitVec 3
  /-- the latest RC trim measurement against PLL_A's reference, or the start of the reference's use; R353; reset 0. -/
  trimAt : Time
  /-- THM_RESET_CAUSE, 2 bits; Table 12.5; reset 0. -/
  cause : Nat
  /-- THM_PFW[0], 1 bit; R369; reset 0. -/
  pfw : Bool
  /-- THM_PFW[1], 1 bit; Table 12.9; reset 0. -/
  pfwSeen : Bool
  /-- when PFW_N was asserted; R369; reset 0. -/
  pfwAt : Time
  /-- the C-die has acted on the power-fail warning of the present assertion; R50, R369; reset 0. -/
  pfwSeenC : Bool
  /-- start of the wait for the crystal, or of a comparison; R351; reset 0. -/
  crystalAt : Time
  /-- PCIE_PERST_N level; R370; reset low, DESIGN CHOICE (log 4). -/
  perst : Bool
  /-- guyline trained at boot; R49, R310; reset 0. -/
  glnTrained : Bool
  /-- memory trained at boot; R296; reset 0. -/
  memTrained : Bool
deriving DecidableEq, Repr

/-- The tick states of Table 1.3, with their TICK_STATE codes. -/
inductive TickState where | internal | waitFirst | locked | freeRun | resync | hold
deriving DecidableEq, Repr

/-- The frame tick (chapter 1). -/
structure Ticks where
  /-- TICK_STATE, 3 bits; Table 1.3; reset 0 internal. -/
  state : TickState
  /-- ticks are generated; Table 12.6 step 8; reset 0. -/
  running : Bool
  /-- next tick of the internal generator, or the next free-run tick; R26, R32; reset 0. -/
  next : Time
  /-- entry to WAIT_FIRST; Table 1.3; reset 0. -/
  entered : Time
  /-- timestamp of the last tick; R30; reset none. -/
  last : Option Time
  /-- the last tick was an accepted FSYNC edge; R31; reset 0. -/
  lastAccepted : Bool
  /-- P_exp in ns as measured; R31; reset none. -/
  measured : Option Nat
  /-- the tick divider D is 2; R27; reset 0 (D = 1). -/
  d2 : Bool
  /-- the next internal tick or accepted edge is suppressed by D = 2; R27; reset 0. -/
  skip : Bool
  /-- timestamp of an accepted edge that D = 2 suppressed since the last tick; R27, R32; reset none. -/
  suppressed : Option Time
  /-- a change of TICK_SRC evaluated at this tick's instant ahead of the tick, which is the old source's; R28; reset 0. -/
  newSource : Bool
  /-- level of FSYNC in the latest sample at 100 MHz; R29; reset low, DESIGN CHOICE (log 4). -/
  fsLevel : Bool
  /-- consecutive samples at that level, up to 3; R29; reset 0. -/
  fsRun : Nat
  /-- three consecutive inactive samples were seen since the last detected edge; R29; reset 0. -/
  fsArmed : Bool
  /-- consecutive accepted FSYNC intervals, up to 16; R353; reset 0. -/
  fsCount : Nat
  /-- number of the next numbered tick, 48 bits; R24; reset 0. -/
  nextFrame : Nat
  /-- FRAME_NUM, 48 bits, the frame number of the latest tick; Table 1.4; reset 0. -/
  frameNum : Nat
  /-- timestamp of the previous tick, idle or numbered, for PERIOD; Table 7.9; reset none. -/
  prev : Option Time
  /-- PIPE_LAT_ROWS, 7 bits; R37; reset 0. -/
  latRows : Nat
  /-- BUDGET_MARGIN, 32 bits; R36; reset 0. -/
  margin : Nat
  /-- MOSAIC_W, 15 bits; R21; reset 0. -/
  mosaicW : Nat
  /-- MOSAIC_H, 14 bits; R21; reset 0. -/
  mosaicH : Nat
deriving DecidableEq, Repr

/-- One delivered pixel (R218): the values that the TQ16 and FP32 formats deliver, the stage 9 output and the quality byte. -/
structure OutPix where
  tq : Nat
  fp : Word
  q9 : Nat
  quality : Nat
deriving DecidableEq, Repr

/-- What a row of an average frame gives to the flysheet reference (R156): 16 LV - OFS - m per pixel, the row level m,
and the interpolated drift coefficients, gains and classes. -/
structure AvgRow where
  a : List Int
  m : Int
  drc : List Int
  gain : List Nat
  cls : List Nat
deriving DecidableEq, Repr

/-- A tile row after stage 5 (R136, R137): NC, membership of the defect set (R138), CONF, and in an average frame what
the reference needs. -/
structure Row5 where
  y : Nat
  nc : List Int
  bad : List Bool
  conf : List Nat
  avg : Option AvgRow
deriving DecidableEq, Repr

/-- A tile row after stage 7, as the pair exchange carries it (Table 11.6). -/
structure Row7 where
  y : Nat
  nc1 : List Int
  nc2 : List Int
  conf : List Nat
  replaced : List Bool
  held : List Bool
deriving DecidableEq, Repr

/-- What a frame holds for one tile. -/
structure FrameTile where
  /-- 1 bit, enabled in the frame; R235; reset 0. -/
  enabled : Bool
  /-- region flags, 16 bits, Table 7.11, VALID left out until the record closes; reset 0. -/
  flags : BitVec 16
  /-- late rows; R82; reset 0. -/
  late : Nat
  /-- missing rows by number; R83; reset none. -/
  missing : List Nat
  /-- rows that have arrived, late ones among them; R82; reset none. -/
  arrived : List Nat
  /-- when the active rows entered the pipeline, by row of the tile; R38, R84; reset none. -/
  entered : List (Nat × Time)
  /-- rows that left the pipeline; R38; reset none. -/
  out : List Nat
  /-- rows that will not arrive, from this row on; R78; reset none. -/
  dropFrom : Option Nat
  /-- lines marked for a CRC mismatch; R80; reset none. -/
  crcRows : List Nat
  /-- rows after stage 5; R123; reset none. -/
  rows : List Row5
  /-- rows received by exchange; R333; reset none. -/
  peer : List Row7
  /-- the frame belongs to the average step of a flysheet cycle; R155; reset 0. -/
  avg : Bool
  /-- stage 9 temporal filter outputs by row; R212; reset none. -/
  filt : List (Nat × List Nat)
  /-- pixels that carry the marker after stage 6; R139; reset 0. -/
  marks : Nat
  /-- INTERP_STATE lo, hi and W; R131; reset 0. -/
  lo : Nat
  hi : Nat
  w : Nat
  /-- Ts_now, signed, 1/256 degree; R167; reset 0. -/
  tsNow : Int
  /-- C_t, 4 bits; R173; reset 0. -/
  conf : Nat
  /-- last reference MOVING; Table 7.10; reset 0. -/
  moving : Bool
  /-- sum and count of the reference-row nodes; R168; reset 0. -/
  refSum : Nat
  refCnt : Nat
  /-- this device read the tile at the frame's tick, or has taken it over since; R323, R333; reset 1. -/
  own : Bool
  /-- rows sent to the peer, as a number of the rows after stage 5; R333; reset 0. -/
  sentRows : Nat
  /-- the tile state record has been sent; R334; reset 0. -/
  recordSent : Bool
  /-- the tile block of the peer's tile state record; R334; reset none. -/
  block : Option Bytes
  /-- CPR blocks of the tile that failed their tag for the frame: row, first column; R197; reset none. -/
  badCpr : List (Nat × Nat)
  /-- drift map blocks of the tile that failed their tag for the frame: row, first column; R304; reset none. -/
  badDpr : List (Nat × Nat)
deriving DecidableEq, Repr

/-- A pixel that enters the statistics (R230). -/
structure StatPix where
  x : Nat
  y : Nat
  tile : Nat
  q : Nat
  v : Word
  conf : Nat
deriving DecidableEq, Repr

/-- A delivery of a frame to one context (R219): its set (none: overflow slot), the buffers completed, and the row
digests of the image buffers. -/
structure Delivery where
  ctx : Ctx
  set : Option Nat
  done : Bool
deriving DecidableEq, Repr

/-- A node that the sampler has tagged (R408): its frame, the number that its record names and whether that is a replay frame, its tile,
the read row, the row and column of the tile, whether it is a reference node, and when its row arrived. -/
structure TaggedNode where
  frame : Nat
  label : Nat
  replay : Bool
  tile : Nat
  read : Nat
  row : Nat
  col : Nat
  isRef : Bool
  time : Time
deriving DecidableEq, Repr

/-- A numbered frame in flight (R25). -/
structure Frame where
  num : Nat
  ts : Time
  period : Nat
  accepted : Bool
  freeRun : Bool
  d2 : Bool
  paired : Bool
  lead : Bool
  hold : Bool
  tfStopped : Bool
  stage : Nat
  warn : Bool
  tiles : List FrameTile
  /-- contexts whose machine-vision stream was started at the tick, and their sets. -/
  deliveries : List Delivery
  /-- the owner context of each port that was started at the tick; R283. -/
  ports : List (Option Ctx)
  /-- ports whose transmission of the frame has ended or was given up; R226. -/
  portsDone : List Bool
  /-- mosaic rows complete; R219. -/
  rowsDone : List Nat
  /-- pixels for the statistics; R230. -/
  stats : List StatPix
  /-- the pixels of the rows that are complete: (y, x, tile, value); tile 8 is a void pixel; R222. -/
  image : List (Nat × List (Nat × OutPix))
  /-- the frame record body, bytes 0 to 199, once closed; R234. -/
  body : Option Bytes
  /-- the buffers of the frame once closed: entry number of Table 9.15, bytes and digest; R218, R220. -/
  bufs : List (Nat × Bytes × Bytes)
  /-- viewports whose fusion latched a camera output: camera and slot; R248. -/
  fuse : List (Option (Nat × Nat))
  /-- the image lines of the two ports, once the frame is closed, with their data type; R224, R225, R227. -/
  images : List (Nat × List Bytes)
deriving DecidableEq, Repr

/-- One bias output (R67 to R71). level is the voltage in units of 1/65536 µV. -/
structure Bias where
  /-- present output level; R67; reset 0 V (Table 12.7). -/
  level : Nat
  /-- BIAS_SETTLED, 1 bit; R69; reset 1 (Table 2.9). -/
  settled : Bool
  /-- when the output reached its target; R69; reset none. -/
  arrived : Option Time
  /-- fault bit, 1 bit; R71; reset 0. -/
  fault : Bool
deriving DecidableEq, Repr

/-- TILE_STATE of Table 2.9; reading is ready while the slots of a frame last. -/
inductive TileMode where | off | waking | biasing | ready | fault
deriving DecidableEq, Repr

/-- The frame receiver of a digital tile port (R78). -/
structure DigPort where
  /-- TP_FV, 1 bit; R74; reset low, DESIGN CHOICE (log 4). -/
  fv : Bool
  /-- a TP_FV rise belongs to the latest tick's frame; R78; reset 0. -/
  seen : Bool
  /-- data discarded until a rise after the next tick; R78; reset 0. -/
  dropped : Bool
  /-- lines received in the frame; R78; reset 0. -/
  lines : Nat
  /-- when each of those lines had arrived, in order; R48; reset none. -/
  times : List Time
  /-- DIG_CLK_MEAS, 16 bits; Table 2.9; reset 0. -/
  clk : Nat
deriving DecidableEq, Repr

/-- A train of equal pulses on an output: the first rise, the time high, the period and the number of pulses, in ns; low
where the number is 0. -/
structure Pulses where
  first : Time
  width : Nat
  period : Nat
  count : Nat
deriving DecidableEq, Repr

/-- What the device drives on the control outputs of a tile from the latest slot point on (R55, R58, R60 to R64, R75). TCLK
stands as the instant of its first edge, its rate in units of 100 kHz and its number of edges (Table 2.2). -/
structure Wave where
  tsync : Pulses
  trow : Pulses
  tintL : Pulses
  tintS : Pulses
  tclkAt : Time
  tclkRate : Nat
  tclkEdges : Nat
deriving DecidableEq, Repr

/-- The sequencer, the bias outputs and the port of one tile (chapter 2). -/
structure TileSt where
  /-- TILE_STATE, 3 bits; Table 2.9; reset 0 off. -/
  mode : TileMode
  /-- TEN[t]; R58; reset low. -/
  ten : Bool
  /-- control outputs started after TILE_WAKE; Table 2.7; reset 0. -/
  control : Bool
  /-- TILE_WAKE has passed since the enable; R72; reset 0. -/
  woken : Bool
  /-- when the tile was enabled; R72, Table 2.7; reset 0. -/
  wakeAt : Time
  /-- TSYNC, TROW, TINT_L, TINT_S and TCLK; R55, R60 to R64, R75; reset low (Table 12.7). -/
  wave : Wave
  /-- biases ramp down: 0 no, 1 at BIAS_SLEW, 2 at 10 mV/us; R73, R356, R365; reset 0. -/
  ramp : Nat
  /-- when VGUARD reached 0 V on shutdown; R73; reset none. -/
  zeroAt : Option Time
  /-- VDET; Table 2.6. -/
  vdet : Bias
  /-- VSKIM; Table 2.6. -/
  vskim : Bias
  /-- VGUARD; Table 2.6. -/
  vguard : Bias
  /-- the tile's own row pointer as the control edges leave it; Table 2.3; reset 0. -/
  rowPtr : Nat
  /-- rows whose integration is complete in the integrators and in the holds; Table 2.3; reset none. -/
  integ : Option Nat
  holds : Option Nat
  /-- row f of the coming frame is missing; R63, R88, R72; reset 0. -/
  firstMissing : Bool
  /-- a BIAS_SETTLED bit was clear since the last lead slot began; R70; reset 0. -/
  unsettled : Bool
  /-- the digital port; R74. -/
  dig : DigPort
  /-- FAULT latched until TILE_EN goes 0 and 1; R71; reset 0. -/
  faulted : Bool
deriving DecidableEq, Repr

/-- The steps of a flysheet cycle and the fault state, FLY_STATE[3:0] (Tables 5.2 and 5.8). -/
inductive FlyStep where | off | isOpen | close | closeSettle | average | compute | opening | openSettle | fault
deriving DecidableEq, Repr

/-- What the flysheet bridge inputs carry; both high is no value (Table 5.1). -/
inductive Drive where | off | close | isOpen
deriving DecidableEq, Repr

/-- How the region of a tile leaves STALE outside a cycle (R164, R165). -/
inductive StaleExit where
  | live | untilOpen | oneMore | untilPulse | pulseFrame
deriving DecidableEq, Repr

/-- What a running flysheet cycle holds (R154 to R157): M, CM_SRC, DSCR and FLY_PULSE as at tick k; frames left in a
settle step; frames used and discarded; MOVING; the sums of R156; the sums, classes and defect sets by row; the
screening sums (R140); the last used frame; the new map; and what changed since tick k. -/
structure Cycle where
  avg : Nat
  cmSrc : Nat
  dscr : Bool
  pulse : Nat
  left : Nat
  used : Nat
  discarded : Nat
  moving : Bool
  tsum : Int
  msum : Int
  mcount : Nat
  acc : List (Nat × List Int)
  inSet : List (Nat × List Bool)
  last : List (Nat × AvgRow)
  s1 : List (Nat × List Int)
  s2 : List (Nat × List Int)
  lastFrame : Nat
  map : Option (List (Nat × List (Int × Bool)))
  cmNew : Int
  cfg : Bool
deriving DecidableEq, Repr

/-- An inhibit window (R161): its start, its end (none: until cleared), and whether FLY_DEFERRED was raised in it. -/
structure Inhibit where
  start : Time
  stop : Option Time
  raised : Bool
deriving DecidableEq, Repr

/-- Drift and flysheet of one tile (chapter 5). -/
structure Drift where
  /-- Ts_now, signed 16 bits, 1/256 degree; R167; reset 0 (R167: 0 if there is none). -/
  tsNow : Int
  /-- TS_FLY, signed 16 bits; R157; reset 0. -/
  tsFly : Int
  /-- CM_BASE, signed, 1/16 LV; R157; reset 0. -/
  cmBase : Int
  /-- X, 16 bits; R172; reset 0. -/
  exc : Nat
  /-- Ts_cnt, signed 16 bits; R172; reset 0. -/
  tsCnt : Int
  /-- a tick has set Ts_cnt since activation; R172; reset 0. -/
  cntSet : Bool
  /-- a reference completed since activation; R159; reset 0. -/
  hasRef : Bool
  /-- FLY_STATE[14], last reference MOVING; Table 5.8; reset 0. -/
  moving : Bool
  /-- last used frame of the last reference, 48 bits; R157; reset 0. -/
  lastRef : Nat
  /-- when the last reference completed; R159; reset 0. -/
  lastRefTime : Time
  /-- tile configuration changed since the last reference; R159; reset 0. -/
  cfgChanged : Bool
  /-- CM_SRC changed since the last reference; R168; reset 0. -/
  cmChanged : Bool
  /-- reasons DTS, TMAX, CONF, CONFIG, HOST, FLY_STATE[20:16]; R159; reset 0. -/
  reasons : BitVec 5
  /-- the HOST reason has FORCE; R160; reset 0. -/
  force : Bool
  /-- FLY_TMAX seconds have passed; R159; reset 0. -/
  tmaxDue : Bool
  /-- frame at which the cycle became due; R159, R160; reset none. -/
  dueSince : Option Nat
  /-- inhibit window; R161; reset none. -/
  inhibit : Option Inhibit
  /-- the step of the cycle, or fault; Table 5.2; reset off. -/
  step : FlyStep
  /-- last fault or abort cause, FLY_STATE[7:4]; Table 5.5; reset 0. -/
  cause : Nat
  /-- the flysheet is in fault; R165; reset 0. -/
  inFault : Bool
  /-- accepted FLY_POS level; R151; reset none. -/
  pos : Option Bool
  /-- FLY_POS level in the latest sample; R151; reset low, DESIGN CHOICE (log 4). -/
  posPin : Bool
  /-- the first of the consecutive samples that show that level; R151; reset 0. -/
  posSince : Time
  /-- bridge drive; Table 5.1; reset off. -/
  drive : Drive
  /-- start of the present or last pulse; R150; reset 0. -/
  pulseAt : Time
  /-- end of the present or last pulse; R150; reset 0. -/
  pulseEnd : Time
  /-- length of an open pulse withheld while PFW_N is asserted; R369; reset none, DESIGN CHOICE (log 37). -/
  pulseHeld : Option Nat
  /-- a position edge of the step was accepted; Table 5.2; reset 0. -/
  edge : Bool
  /-- the running cycle; R154; reset none. -/
  cycle : Option Cycle
  /-- STALE outside a cycle; R164, R165; reset live. -/
  stale : StaleExit
  /-- an open pulse awaits its edge after an abort; R164; reset 0. -/
  openWait : Bool
  /-- FLY_STATE[15], DRIFT_DEGRADED in the latest frame; R176; reset 0. -/
  degraded : Bool
  /-- rate in mK/s before saturation; R174; reset 0. -/
  rate : Nat
  /-- reference-row level of the latest frame; R168; reset 0. -/
  refRow : Nat
  /-- past ticks: time, and HK_LAST[14 + t] value or the Ts_now that stood for it; R174; reset none. -/
  past : List (Time × Bool × Int)
  /-- FLY_ACT_CNT, 32 bits; R153; reset 0. -/
  acts : Nat
  /-- close pulses not yet added to the ledger; R387; reset 0. -/
  actsNew : Nat
  /-- block means of the previous frame and of the one before, by block; R169; reset none. -/
  blocks1 : List (Nat × Int)
  blocks2 : List (Nat × Int)
  /-- INTERP_STATE: lo, hi, W, CAL_EXTRAPOLATION_CLAMP in the latest frame, held; R131, R132, Table 4.8; reset 0. -/
  lo : Nat
  hi : Nat
  w : Nat
  clamp : Bool
  kept : Bool
  /-- the region was UNCALIBRATED in the latest frame; R193; reset 1. -/
  uncal : Bool
  /-- lo, hi, W and T_ref of the latest frame since activation; R132; reset none. -/
  prevPair : Option (Nat × Nat × Nat × Int)
  /-- TREF_USED, signed 16 bits; R130; reset 0. -/
  tref : Int
  /-- current candidates as pixel indexes y x 4096 + x; R142; reset none. -/
  cands : List Nat
  /-- DEF_CAND_CNT, 13 bits; R141; reset 0. -/
  candCnt : Nat
  /-- DEF_STATIC_CNT, 22 bits; R138; reset 0. -/
  staticCnt : Nat
  /-- DEF_MARK_CNT, 22 bits; R139; reset 0. -/
  markCnt : Nat
  /-- temporal history is empty from the next frame; R213; reset 1. -/
  histEmpty : Bool
  /-- the region was STALE in the latest frame; R213; reset 0. -/
  wasStale : Bool
  /-- the tile block of the latest frame record, 12 bytes; R334; reset 0. -/
  lastBlock : Bytes
deriving DecidableEq, Repr

/-- The injected sequence (R107 to R109): its entries still to do, its trigger tile, the instant of its trigger and the
trigger's source, 0 flysheet, 1 bias fault, 2 PFW_N, 3 host. -/
structure Injected where
  entries : List Nat
  tile : Option Nat
  start : Time
  source : Nat
deriving DecidableEq, Repr

/-- The housekeeping converter (chapter 3). -/
structure Hk where
  /-- housekeeping runs; R101; reset 0 (it starts at F-die reset release). -/
  on : Bool
  /-- entries of the running regular round still to do, HK_STATE 1; R105; reset none. -/
  round : List Nat
  /-- the running injected sequence, HK_STATE 2; R107; reset none. -/
  inj : Option Injected
  /-- a due round waits; R105; reset 0. -/
  waiting : Bool
  /-- the next due time; R105; reset 0. -/
  due : Time
  /-- a committed change takes effect at the next round start; R106; reset 0. -/
  newCfg : Bool
  /-- the regular entries, length and round period in force; R106; reset from Table 3.6b. -/
  regular : List Nat
  period : Nat
  /-- the injected entries and the trigger enables in force; R106; reset from Table 3.6b. -/
  injected : List Nat
  trig : Nat
  /-- HK_LAST, 26 bits each, 32 channels; Table 3.6b; reset 0. -/
  last : List Nat
  /-- HK_LAST as the C-die has received it over the guyline, 26 bits each; R18, R43; reset 0. -/
  shown : List Nat
  /-- remote values of TC0 to TC7 and when they arrived; R103; reset none. -/
  remote : List (Option (Nat × Time))
  /-- the result queue, oldest first, at most 128 words; R110; reset empty. -/
  queue : List Nat
  /-- ADC_REF_STATUS[0], READY; R97; reset 0. -/
  refReady : Bool
  /-- when ADC_REFEN was enabled; R97; reset none. -/
  refAt : Option Time
  /-- the channels' trim that the F-die has received from SC: offset, gain, and whether the check value holds; R93; reset identity,
  DESIGN CHOICE (log 6). -/
  trim : List (Int × Nat × Bool)
deriving DecidableEq, Repr

/-- Thermal control (chapter 12). -/
structure Thermal where
  /-- THM_GOV[11:0] and [15:12]; R362; reset 0. -/
  gov : Nat
  govSensor : Nat
  /-- the F-die's own governing temperature and sensor while the guyline is down; R362; reset 0. -/
  govF : Nat
  govSensorF : Nat
  /-- the VALUE that decided the present shutdown; R365, Table 12.10; reset 0. -/
  shutValue : Nat
  /-- throttle stage 0 to 2; R364; reset 0. -/
  stage : Nat
  /-- warning level reached; R363; reset 0. -/
  warn : Bool
  /-- throttle level reached and not released; R363; reset 0. -/
  throttle : Bool
  /-- stage 2 starts at the next tick; R364; reset 0. -/
  stage2Due : Bool
  /-- when stage 1 began; R364; reset none. -/
  stage1At : Option Time
  /-- shutdown; R365; reset 0. -/
  shutdown : Bool
  /-- tiles re-enable at the next tick after THM_RESUME; R366; reset 0. -/
  resume : Bool
  /-- THM_BROKEN, 14 bits; R360; reset 0. -/
  broken : BitVec 14
  /-- THM_DEV_CNT, 2 bits each; R360; reset 0. -/
  dev : List Nat
  /-- THM_SENSOR_CONFLICT already raised for the sensor; R361; reset 0. -/
  conflict : BitVec 14
  /-- highest governing temperature of the operating minute; R387; reset 0. -/
  peak : Nat
deriving DecidableEq, Repr

/-- A section of the payload: type, tile, set, payload offset, length, device memory address (R181, R195). -/
structure Section where
  typ : Nat
  tile : Nat
  set : Nat
  off : Nat
  len : Nat
  addr : Nat
deriving DecidableEq, Repr

/-- The active bundle and the table memory it was copied into (R193, R199). -/
structure Bundle where
  hdr : Bytes
  area : Nat
  actFrame : Nat
  lin : List (Nat × Bytes)
  nlc : List (Nat × Bytes)
  tsub : List (Nat × Bytes)
  housing : Bytes
  rad : List (Nat × Bytes)
  /-- the sections of its directory, as they stand in the area; R182, R335. -/
  secs : List Section
  /-- (tile, set, byte address) of each CPR section. -/
  cpr : List (Nat × Nat × Nat)
deriving DecidableEq, Repr

/-- An import session (R187 to R191). -/
structure Session where
  owner : Ctx
  hdr : Bytes
  next : Nat
  plain : Bytes
  secs : Option (List Section)
  touched : Time
  verified : Bool
  /-- an END before the latest one had verified the bundle already (R190, R276). -/
  wasVerified : Bool
  txn : Option Nat
deriving DecidableEq, Repr

/-- The activation of a verified bundle (R190, R193): its NV commit, the wait for tick A, the copy without a tick after
100 ms, and the hold frames with their number. -/
inductive Activation where
  | none
  | committing
  | waiting (since : Time)
  | copying
  | holding (start : Time) (copied : Bool) (held : Nat)
deriving DecidableEq, Repr

/-- A physical page of the NV store that a logical page maps to: bytes, CRC-32C and transaction (R379, R381). -/
structure NvCopy where
  phys : Nat
  data : Bytes
  crc : Word
  txn : Nat
deriving DecidableEq, Repr

/-- The mapping of one logical page: current and previous copy. -/
structure NvPage where
  page : Nat
  cur : NvCopy
  prev : Option NvCopy
deriving DecidableEq, Repr

/-- What a write does as it enters the commit buffer, beside the updates that it carries: nothing, the identity of a bundle that the
PARTNER of a pair received (R335), the ledger summary as it then stands (R386), the close of the open period with the payload of its
command (R389), the pages of a commit's persistent parameters (R289), or the record of a transfer with its new key (R309). -/
inductive NvAct where
  | plain
  | bundle
  | summary
  | close (payload : Bytes)
  | params (vals : List (Nat × Word))
  | transfer (key : Bytes)
deriving DecidableEq, Repr

/-- A write that waits for the commit buffer (R378): its updates (logical page, offset, bytes), whether a commit starts once
it has entered, the command that it belongs to, what it does as it enters, and its place in the order of fetches, by which the
latest write of a byte wins. -/
structure NvGroup where
  ups : List (Nat × Nat × Bytes)
  now : Bool
  owner : Option (Ctx × Nat)
  act : NvAct := .plain
  order : Nat := 0
deriving DecidableEq, Repr

/-- The NV store (chapter 13). The fields down to wear survive loss of power. -/
structure Nv where
  /-- committed pages by logical page; R371; DESIGN CHOICE none held as delivered (log 5). -/
  pages : List NvPage
  /-- NV_TXN, 48 bits; R379; DESIGN CHOICE 0 as delivered (log 5). -/
  txn : Nat
  /-- spare pool, physical pages; R371; reset 192 pages. -/
  spares : List Nat
  /-- write counts of physical pages, absent 0; R371; reset 0. -/
  wear : List (Nat × Nat)
  /-- the commit records in the journal pages, by physical page; R379; DESIGN CHOICE none held as delivered (log 5). -/
  records : List (Nat × Bytes)
  /-- the next journal page, 0 to 63; R379; DESIGN CHOICE 0 as delivered (log 5). -/
  journalAt : Nat
  /-- the commit buffer, at most 64 pages; R378; reset empty. -/
  buffer : List (Nat × Bytes)
  /-- what has entered the buffer: order of the fetch, page, offset, length; R378; reset empty. -/
  entered : List (Nat × Nat × Nat × Nat)
  /-- number of the last transaction that was started; R379, R382; reset NV_TXN. -/
  last : Nat
  /-- when the first page entered the buffer; R378; reset none. -/
  firstAt : Option Time
  /-- the running transaction's number; R379; reset none. -/
  running : Option Nat
  /-- writes that wait to enter the buffer, oldest first; R378; reset empty. -/
  waiting : List NvGroup
  /-- NV_LOCK, 8 bits; R385; reset 0. -/
  lock : BitVec 8
  /-- NV_PW_FAIL, 4 bits each; R385; reset 0. -/
  fails : List Nat
  /-- NV_SPARES_LOW raised; R382; reset 0. -/
  low : Bool
deriving DecidableEq, Repr

/-- The service ledger's present values (R386 to R389); its committed image stands in NV pages 256 to 288. -/
structure Ledger where
  minutes : Nat
  time : Nat
  bands : List Nat
  pulses : List Nat
  warnings : Nat
  stage2 : Nat
  shutdowns : Nat
  regress : Nat
  openIdx : Nat
  closed : Nat
  start : Nat
  openMin : Nat
  openPulses : Nat
  openFlag : Bool
  log : List Bytes
deriving DecidableEq, Repr

/-- OTP (Table 10.5). Owner slots: state 0 unused, 1 active, 2 revoked, and the public key as given. -/
structure Otp where
  /-- 1 I, 2 E; Table 9.13; DESIGN CHOICE 1 (log 6). -/
  grade : Nat
  /-- silicon revision; Table 9.13; DESIGN CHOICE 0xB0 (log 6). -/
  revision : Nat
  /-- ADC trim rows: offset, gain, and whether the check value holds; R93; DESIGN CHOICE offset 0, gain 0x4000, good (log 6). -/
  trim : List (Int × Nat × Bool)
  /-- interleave skew words; R95; DESIGN CHOICE 0 (log 6). -/
  skew : List Nat
  /-- RC trim code, 10 bits; R353; DESIGN CHOICE 512 (log 6). -/
  rcTrim : Nat
  /-- lifecycle owned; R308; DESIGN CHOICE unowned (log 6). -/
  owned : Bool
  /-- owner slots; R305; DESIGN CHOICE unused (log 6). -/
  slots : List (Nat × Bytes)
  /-- firmware anti-rollback counter, 0 to 2048; R305; DESIGN CHOICE 0 (log 6). -/
  arb : Nat
  /-- grant epoch, 0 to 512; R308; DESIGN CHOICE 0 (log 6). -/
  epoch : Nat
  /-- a transfer under way: the new key, and whether steps 2 to 4 are done; R309; DESIGN CHOICE none (log 6). -/
  transfer : Option (Bytes × Bool)
deriving DecidableEq, Repr

/-- The security core and the firmware (chapter 10). -/
structure Sec where
  /-- OTP; Table 10.5. -/
  otp : Otp
  /-- the two flash slots, byte images; Table 10.12; DESIGN CHOICE empty (log 6). -/
  flash : List Bytes
  /-- running slot 0 A, 1 B, none in basecamp; R310; reset none. -/
  runningSlot : Option Nat
  /-- the image data of a running download; its length is the next expected offset; R317; reset none. -/
  dl : Option Bytes
  /-- number of random draws made since the device was made; R302, R312; model's own counter. -/
  draws : Nat
  /-- the draw of the per-boot memory keys; R302; reset none. -/
  bootDraw : Option Nat
  /-- restart due 10 ms after FW_ACTIVATE; R317; reset none. -/
  restartAt : Option Time
  /-- cause of a self reset that waits for the end of the commit; R383; reset none. -/
  resetDue : Option Nat
  /-- reset release, for the confirm window; R318; reset 0. -/
  bootedAt : Time
  /-- FW_ROLLBACK to raise at the first event arm: slot; R310; reset none. -/
  rollback : Option Nat
  /-- FW_TRIAL to raise at the first event arm of a trial boot; Table 10.16; reset 0. -/
  trialDue : Bool
  /-- the slot that this boot tries: its confirm window runs, whatever image runs by then; R318; reset none. -/
  trial : Option Nat
deriving DecidableEq, Repr

/-- A data flit that waits for transmission: CLASS, SOM, EOM and PAYLOAD (Table 1.6); SEQ and CRC are formed as it leaves. -/
structure Piece where
  cls : Nat
  som : Bool
  eom : Bool
  payload : Bytes
deriving DecidableEq, Repr

/-- The transmitter and the receiver of one direction of a link (R44, R46). -/
structure LinkSide where
  /-- flits that wait for transmission, in the order in which their messages were raised; R43, R44; reset empty. -/
  queue : List Piece
  /-- next SEQ of the transmitter, 8 bits; R44; reset 0. -/
  txSeq : Nat
  /-- unacknowledged data flits, oldest first, at most 128, with the time they were sent; R44; reset empty. -/
  replay : List (BitVec 256 × Time)
  /-- SEQ the receiver expects, 8 bits; R44; reset 0. -/
  rxSeq : Nat
  /-- the last link flit that the receiver sent: payload code and SEQ; R44; reset none. -/
  sent : Option (Nat × Nat)
  /-- good flits not acknowledged yet; R44; reset 0. -/
  unacked : Nat
  /-- replays in the present 1 ms window; R46; reset 0. -/
  window : Nat
  /-- number of the 1 ms window of the time base that the count belongs to; R46; reset 0. -/
  windowAt : Nat
  /-- the part received so far of the open message of each class 0 to 3; R43; reset empty. -/
  partials : List Bytes
  /-- flits that the transmitter has sent since the counters last took them in, by instant, newest last: data flits, again at a replay,
  and the ACK and NAK of the receiver beside it; R399, R402, Table 14.1; reset none. -/
  flits : List (Time × Nat)
deriving DecidableEq, Repr

/-- States of a link, GLN_STATE and PAIR_LINK_STATE (Tables 1.8 and 11.13). -/
inductive LinkState where | down | training | up | retraining
deriving DecidableEq, Repr

/-- The guyline and the Vexnex link. -/
structure Links where
  /-- GLN_STATE, 2 bits; Table 1.8; reset 0 down. -/
  gln : LinkState
  /-- PAIR_LINK_STATE, 2 bits; Table 11.13; reset 0 down. -/
  vxState : LinkState
  /-- GLN_WIDTH, 8 bits; Table 1.8; reset 0x44. -/
  width : Nat
  /-- consecutive failed retrains; R49; reset 0. -/
  failed : Nat
  /-- the three receiving sides; R44. -/
  fc : LinkSide
  cf : LinkSide
  vx : LinkSide
  /-- when the guyline's present retrain started; R46, R48; reset 0. -/
  retrainAt : Time
  /-- sideband words that wait on each wire, oldest first; R50; reset empty. -/
  wordsFC : List (BitVec 20)
  wordsCF : List (BitVec 20)
  /-- event numbers: next number raised and lowest not acted on, per wire; R50; reset 0. -/
  numFC : Nat
  numCF : Nat
  ackFC : Nat
  ackCF : Nat
  /-- events E to E + 15 acted on, per wire; R50; reset 0. -/
  actFC : BitVec 16
  actCF : BitVec 16
  /-- class-0 events raised and not yet acted on: wire, number, code, detail, cause; R50; reset none. -/
  raised : List (Wire × Nat × Nat × Nat × Nat)
deriving DecidableEq, Repr

/-- PAIR_STATE of Table 11.3. -/
inductive PairMode where | single | detached | joining | paired | sole
deriving DecidableEq, Repr

/-- The part of an SHO mirror that has arrived and is not installed yet (Table 11.8): its tile, its drift records by pixel, and the
candidate list once the transfer is complete. -/
structure Mirror where
  tile : Nat
  parts : List (Nat × List Word)
  cands : Option Bytes
deriving DecidableEq, Repr

/-- The Vexnex pair (chapter 11). -/
structure Pair where
  /-- PAIR_STATE, 3 bits; Table 11.3; reset 0 or 1 (PAIR_BOARD). -/
  mode : PairMode
  /-- PAIR_ROLE, 2 bits: 0 LEAD, 1 PARTNER, 2 none; Table 11.13; reset 2. -/
  role : Nat
  /-- TOWN[7:0]; R323; reset 0. -/
  own : BitVec 8
  /-- tiles whose TOWN is to be raised; R323; reset 0. -/
  raising : BitVec 8
  /-- PEER_RST_N driven low; R340; reset released. -/
  peerRst : Bool
  /-- when PEER_RST_N was asserted; R340; reset 0. -/
  detectAt : Time
  /-- PAIR_ALIVE_O toggles; R338; reset 0. -/
  alive : Bool
  /-- last heartbeat sent and received; R338, R339; reset none. -/
  sentAt : Option Time
  rcvdAt : Option Time
  /-- the last heartbeat received; R339; reset none. -/
  beat : Option Heartbeat
  /-- PAIR_ALIVE_FAULT already raised; R339; reset 0. -/
  aliveFault : Bool
  /-- the peer's DEV_ID; Table 11.11; reset zero. -/
  peerId : Bytes
  /-- failovers since reset, last detection, last LEAVING cause, frame of the last detection; Table 11.11; reset 0. -/
  failovers : Nat
  detection : Nat
  leaveCause : Nat
  detectFrame : Nat
  /-- frames since each tile's last SHO mirror; Table 11.11; reset 255. -/
  mirrorAge : List Nat
  /-- tiles whose SHO transfer is not complete; R336; reset 0. -/
  mirrorOpen : BitVec 8
  /-- D is demanded by the peer; R329; reset 0. -/
  peerD2 : Bool
  /-- digital tiles taken over in this frame; R341; reset 0. -/
  held : BitVec 8
  /-- start of slot s_0, from which they are driven and their lines processed; R341; reset 0. -/
  heldTill : Time
  /-- rewind of a takeover: first slot s_0, and the row u of each tile, 65535 for a tile that is not rewound; R340; reset none. -/
  rewind : Option (Nat × List Nat)
  /-- the last heartbeat's frame number differed from the device's own on arrival; Table 11.9; reset 0. -/
  beatOff : Bool
  /-- the LEAD's commits whose shared staged values have been forwarded, on either device: the commit's number, whether it applies
  at the coming tick, and the values; R331; reset empty. -/
  sync : List (Nat × Bool × List (Nat × Word))
  /-- what the PARTNER's checks answered to this LEAD's commits: the commit's fetch order and the mask; R331; reset empty. -/
  verdicts : List (Nat × Nat)
  /-- the LEAD's bundle under transfer; R335; reset none. -/
  transfer : Option Session
  /-- the link key of the join, 32 bytes; R326, R327; reset empty. -/
  key : Bytes
  /-- messages sent to the peer since the join, the nonce of the next; R326; reset 0. -/
  sent : Nat
  /-- a blank handover of every tile to the peer is due; R345, R346; reset 0. -/
  giving : Bool
  /-- the peer has been asked to hand its tiles over; R346; reset 0. -/
  asked : Bool
  /-- the pair ended with a handover; R346; reset 0. -/
  handed : Bool
  /-- SHO mirrors that have arrived and are not installed; Table 11.8; reset empty. -/
  mirrors : List Mirror
  /-- the status that the PARTNER answered to the bundle under transfer; R335; reset none. -/
  peerBundle : Option Nat
  /-- this LEAD's own NV commit of the bundle under import is done; R335; reset 0. -/
  ownBundle : Bool
  /-- the NV transaction that holds the identity of the bundle that this PARTNER received; R335; reset none. -/
  bundleTxn : Option Nat
  /-- tags whose forwarded commands a failover ended, with the generations to pass at the next join; R344; reset empty. -/
  failedTags : List Nat
deriving DecidableEq, Repr

/-- What a unit's counters held before what happened at an instant, a clear among it or not (R401, R402). -/
structure Past where
  time : Time
  clear : Bool
  cnt : List Nat
  ovf : BitVec 8
deriving DecidableEq, Repr

/-- A counter unit (R398 to R401). -/
structure CounterUnit where
  /-- the cycle counter, 64 bits, in units of 1/40,000 cycle, so that no fraction of a cycle is lost; R398; reset 0. -/
  cycles : Nat
  /-- CNT0 to CNT7, 48 bits; R398; reset 0. -/
  cnt : List Nat
  /-- overflow bits, 8 bits; R400; reset 0. -/
  ovf : BitVec 8
  /-- what the counters held before each of their latest changes, newest first; R401, R402; reset none. -/
  before : List Past
deriving DecidableEq, Repr

/-- The top-down slot counts of one lane (R406). -/
structure Lane where
  retired : Nat
  wasted : Nat
  starved : Nat
  stalled : Nat
  pending : Nat
deriving DecidableEq, Repr

/-- A row whose nodes enter stage 1, one in each 800 MHz clock (R406, R408): its frame with the number that sample records name and
whether it is a replay frame, its tile and read row, its row in the tile and whether it is a reference row, the next column, the number
of columns with the active ones among them, the clock of column 0, when the row arrived, and whether the row has left its last stage
already. -/
structure Entering where
  frame : Nat
  label : Nat
  replay : Bool
  tile : Nat
  read : Nat
  row : Nat
  refRow : Bool
  next : Nat
  cols : Nat
  active : Nat
  clock : Nat
  time : Time
  retired : Bool
deriving DecidableEq, Repr

/-- Counters, sampling and debug (chapter 14). -/
structure Perf where
  /-- counter units 0 to 15; Table 14.1; reset 0. -/
  units : List CounterUnit
  /-- lanes 0 to 7; R406; reset 0. -/
  lanes : List Lane
  /-- time up to which the cycle counters stand; R398; reset 0. -/
  upTo : Time
  /-- PERF_SNAP_SEQ, 32 bits, and whether any record was written; Table 14.4; reset 0. -/
  snapSeq : Nat
  /-- PERF_SNAP_IDX, 6 bits; Table 14.4; reset 0. -/
  snapIdx : Nat
  /-- latched records not yet written, at most 2, with the command that waits; R403; reset none. -/
  latched : List (Bytes × Option (Ctx × Nat))
  /-- numbered ticks since the last tick snapshot; R402; reset 0. -/
  tickCnt : Nat
  /-- the LFSR, 31 bits; R408; reset 1 (SAMPLE_SEED). -/
  lfsr : BitVec 31
  /-- sample records held, oldest first, at most 4,096; R410; reset empty. -/
  samples : List Bytes
  /-- the entries of the sample buffer at SAMPLE_ADDR that have been written, by number, 32 bytes each; R410; reset none. -/
  entries : List (Nat × Bytes)
  /-- the entry that the next record takes, 0 to 4,095; R410; reset 0, DESIGN CHOICE (log 131). -/
  nextEntry : Nat
  /-- rows whose nodes have not all entered stage 1, oldest first; R406, R408; reset none. -/
  entering : List Entering
  /-- nodes that have entered stage 1 and whose fate is not known, by frame x 8 + tile: the parts of PENDING; R406; reset none. -/
  inPipe : List (Nat × Nat)
  /-- nodes that the sampler has tagged and whose fate is not known; R408; reset none. -/
  tagged : List TaggedNode
  /-- cycles of counter unit 0 with a BIAS_SETTLED bit clear, in units of 1/40,000; Table 14.1; reset 0. -/
  biasClear : Nat
  /-- how many of them counter unit 0 has taken in; Table 14.1; reset 0. -/
  biasMark : Nat
deriving DecidableEq, Repr

/-- Debug access (R411 to R417). -/
structure Debug where
  /-- level open, 0 none; R414; reset 0. -/
  level : Nat
  /-- operating minutes left, 16 bits; R413, Table 14.5; reset 0. -/
  minutes : Nat
  /-- the level is open until reset; R413; reset 0. -/
  forever : Bool
  /-- an unlock nonce and its expiry; R413; reset none. -/
  nonce : Option (Bytes × Time)
  /-- DBG_HALT, 4 bits, and when each core halted; Table 14.5; reset 0. -/
  halted : List (Option Time)
  /-- DBG_LOCKS, 32 bits, with the core that holds each; R417; reset none. -/
  locks : List (Nat × Nat)
  /-- breakpoints set: core and address; R414; reset none. -/
  breaks : List (Nat × Nat)
  /-- the core that each context's commands run on; R417; reset CC(x mod 4), DESIGN CHOICE (log 7). -/
  coreOf : List Nat
  /-- the JTAG instruction in force; R411; reset BYPASS, DESIGN CHOICE (log 7). -/
  tap : TapInstr
  /-- cycles of counter unit 13, in units of 1/40,000, up to which the halted cycles of each core are counted; R399; reset 0. -/
  haltMarks : List Nat
  /-- halts and steps of each core so far, on which its registers depend; R414; the model's own counter; reset 0. -/
  ages : List Nat
  /-- events that wait for a halted core: context, code, detail and when they were raised, oldest first; R416; reset none. -/
  heldEvents : List (Ctx × Nat × Bytes × Stamp)
  /-- the boundary register as preloaded; R411; reset all low, DESIGN CHOICE (log 132). -/
  preload : Cells
deriving DecidableEq, Repr

/-- A submitted auxiliary frame (R241). -/
structure AuxJob where
  cam : Nat
  slot : Nat
  seq : Nat
  subAt : Time
deriving DecidableEq, Repr

/-- One auxiliary camera's outputs (R242): newest output slot, its SEQ, its submission time, and the SEQ per slot. -/
structure AuxCam where
  newest : Nat
  valid : Bool
  seq : Nat
  subAt : Time
deriving DecidableEq, Repr

/-- Auxiliary path and replay (chapter 8). -/
structure Aux where
  /-- queued submissions in order; R242; reset empty. -/
  queue : List AuxJob
  /-- the submission being processed, its output slot, table block, and configuration words; R242; reset none. -/
  job : Option (AuxJob × Nat × Bytes × List Nat)
  /-- the four cameras; AUX_STATE; Table 8.4; reset 0. -/
  cams : List AuxCam
  /-- AUX_FUSE_STATE, 32 bits each; Table 8.4; reset 0. -/
  fuseState : List Nat
  /-- REPLAY_STATE[1:0]: 0 idle, 1 replay, 2 capture; Table 8.4; reset 0. -/
  op : Nat
  /-- REPLAY_STATE[9:2], frames done; Table 8.4; reset 0. -/
  done : Nat
  /-- REPLAY_STATE[13:10], stop cause; Table 8.4; reset 0. -/
  cause : Nat
  /-- a stop waits for the frame in progress; R249; reset 0. -/
  stopReq : Bool
  /-- a replay frame is in progress since; R251; reset none. -/
  busySince : Option Time
  /-- byte offset of the next source frame and of the next result; R249; reset 0. -/
  src : Nat
  dst : Nat
  /-- a frame is being captured; R249; reset none. -/
  capture : Option Nat
deriving DecidableEq, Repr

/-- Pin levels of Table 12.7 that follow from no other field. -/
structure Pins where
  /-- every pin is at high impedance: the device is unpowered; Table 12.7; reset 0. -/
  highZ : Bool
  /-- SEL[3:0], 4 bits; Table 12.7, Table 13.8; reset 0xF. -/
  sel : Nat
  /-- SEL_EN is to be high from 20 ns after an instant on; Table 13.8; reset low. -/
  selEn : Option Time
  /-- LPDDR5X RESET_N high and CK running; Table 12.7; reset 0. -/
  memOn : Bool
  /-- the Octal-SPI chip select operates; else it is high; Table 12.7; reset 0. -/
  flashOn : Bool
deriving DecidableEq, Repr

/-- One peg port (R391 to R397). -/
structure Peg where
  /-- PEG_XFER_STATUS[1:0] and [7:2]; Table 13.10; reset 0. -/
  status : Nat
  bytes : Nat
  /-- the running master transfer: select code and length; R393; reset none. -/
  xfer : Option (Nat × Nat)
  /-- PEG_CFG as the running master transfer uses it; R391; reset none. -/
  held : Option Nat
  /-- received bytes of master transfers, 32 bytes, PEG_RX; Table 13.10; reset 0. -/
  rx : Bytes
  /-- a transfer of the other port holds SEL: this one waits; R392; reset none. -/
  queued : Option (Nat × Nat)
  /-- receive FIFO, oldest first, at most 512 bytes; R395; reset empty. -/
  rxFifo : Bytes
  /-- bytes that the context has read out of the FIFO and not yet taken as a frame, oldest first; R260, R395; reset empty. -/
  rxFrame : Bytes
  /-- frames to transmit, oldest first; R260, R395; reset empty. -/
  txFrames : List Bytes
  /-- bytes of the first frame already sent; R397; reset 0. -/
  txPos : Nat
  /-- the byte last sent, for UNDERRUN; R396; reset 0xFF. -/
  lastTx : Byte
  /-- bytes are discarded until the select is released; R260, R395; reset 0. -/
  discard : Bool
  /-- PEGn_SS_N low; R397; reset 0. -/
  selected : Bool
deriving DecidableEq, Repr

/-- A port OUT0 or OUT1 (R226). -/
structure OutPort where
  /-- OUT_PORT_STATE, 2 bits; Table 7.14; reset 0. -/
  state : Nat
  /-- the frame under transmission; R226; reset none. -/
  sending : Option Nat
  /-- the owner context's stream; R281; reset not started. -/
  stream : Stream
  /-- AGC lo and hi, and the mode 2 table, of the viewport of the same number; R223; reset none. -/
  agc : Option (Nat × Nat)
  lut : List Nat
  /-- histogram of the previous frame's source pixels of that viewport as (bin, count); R223; reset none. -/
  hist : List (Nat × Nat)
  /-- the palette that the viewport of the same number copied at the tick, 1,024 bytes; R224; reset empty. -/
  pal : Bytes
deriving DecidableEq, Repr

/-- A row in the tap sample buffers of its tile while its slot lasts (R48, R60, R98): tile, row, whether it is late, the
start of the slot, the number of samples per tap, the TCLK rate in units of 100 kHz, the conversion instant after a TCLK edge in
units of 100 ps (R90), the shift of the odd samples of each tap in units of 0.5 ps (R95), and the sample words. -/
structure SlotRow where
  tile : Nat
  row : Nat
  late : Bool
  start : Time
  per : Nat
  rate : Nat
  phase : Nat
  skew : List Int
  words : List Nat
deriving DecidableEq, Repr

/-- The readout position of the F-die sequencer (R60 to R62). -/
structure Seq where
  /-- frame being read, and its tick timestamp; R60; reset none. -/
  frame : Option (Nat × Time)
  /-- next slot r; R60; reset 0. -/
  slot : Nat
  /-- the C-die knows the frame: number and timestamp from the frame-start message; R19; reset none. -/
  cdie : Option (Nat × Time)
  /-- start of the next lead slot; R62; reset none. -/
  lead : Option Time
  /-- tiles whose pointer reset of the frame is done; R61; reset none. -/
  pointers : BitVec 8
  /-- rows whose slot lasts; R60, R98; reset none. -/
  sampling : List SlotRow
  /-- the latest update of the bias DACs; R67; reset none. -/
  dacAt : Option Time
  /-- the present tick's delay behind its timestamp, ns: 2,000 on a PARTNER; R329; reset 0. -/
  shift : Nat
deriving DecidableEq, Repr

/-- External memory (chapter 10). -/
structure Mem where
  /-- GiB fitted, 0 none; R294; reset 8, DESIGN CHOICE (log 3). -/
  gib : Nat
  /-- contents as (address, byte), addresses rising, no zero byte listed; R297; reset empty. -/
  cells : List Host.Cell
  /-- MEM_CH_STATE[1:0] and [7:3] per channel; R296; reset 0. -/
  chan : List (Nat × Nat)
  /-- MEM_CH_RATE, 16 bits each; R299; reset 0. -/
  rate : List Nat
  /-- MEM_SLOW_MASK, 8 bits; R299; reset 0. -/
  slow : BitVec 8
  /-- MEM_LOAD, 7 bits; Table 10.14; reset 0. -/
  load : Nat
deriving DecidableEq, Repr

/-- The state of the device. -/
structure State where
  /-- the commands that wait, first in first out; the task's queue; reset empty. -/
  pending : List Instr
  /-- device time base, 64 bits, ns; R352; reset 0. -/
  time : Time
  /-- power and boot state; R310, Table 12.7; reset in reset. -/
  boot : Boot
  /-- clocks, straps and reset; chapter 12. -/
  clk : Clocks
  /-- the register file: values of RW, RWS and RC parameters that differ from reset, by ID; R286; reset empty. -/
  regs : List (Nat × Word)
  /-- the frame tick; chapter 1. -/
  tick : Ticks
  /-- the copy of the active scene table slot that the latest tick made, 1,024 bytes; R207; reset empty. -/
  scene : Bytes
  /-- the sequencer's position; R60. -/
  seq : Seq
  /-- frames in flight, oldest first; R25; reset none. -/
  frames : List Frame
  /-- tiles T0 to T7; chapter 2. -/
  tiles : List TileSt
  /-- drift state of the tiles; chapter 5. -/
  drift : List Drift
  /-- housekeeping converter; chapter 3. -/
  hk : Hk
  /-- thermal control; chapter 12. -/
  thm : Thermal
  /-- active bundle; R179; reset none. -/
  bundle : Option Bundle
  /-- import session; R187; reset none. -/
  session : Option Session
  /-- activation; R193; reset none. -/
  act : Activation
  /-- values last delivered per mosaic position y x 32768 + x; R83, R158; reset none. -/
  held : List (Nat × OutPix)
  /-- temporal filter history by tile x 2^23 + y x 4096 + x, 16 bits, absent where empty; R212; reset empty. -/
  history : List (Nat × Nat)
  /-- contexts CTX0 to CTX7; R253. -/
  ctxs : List Context
  /-- live generations of tags, absent 0; R269; reset 0. -/
  gens : List (Nat × Nat)
  /-- commands fetched so far, for fetch order; R271; reset 0. -/
  fetches : Nat
  /-- NV store; chapter 13. -/
  nv : Nv
  /-- service ledger; R386. -/
  ledger : Ledger
  /-- security core and firmware; chapter 10. -/
  sec : Sec
  /-- guyline and Vexnex; chapters 1 and 11. -/
  links : Links
  /-- Vexnex pair; chapter 11. -/
  pair : Pair
  /-- counters and sampling; chapter 14. -/
  perf : Perf
  /-- debug access; R411. -/
  dbg : Debug
  /-- auxiliary path and replay; chapter 8. -/
  aux : Aux
  /-- peg ports; chapter 13. -/
  pegs : List Peg
  /-- pin levels; Table 12.7. -/
  pins : Pins
  /-- CSI-2 ports; R226. -/
  outs : List OutPort
  /-- external memory; chapter 10. -/
  mem : Mem
  /-- what the device has written towards hosts, oldest first; the model's own record; reset empty. -/
  out : List HostOut
  /-- completion status of the latest register-write event; the model's own record; reset DONE. -/
  wstatus : Status
  /-- number of free values taken so far; the model's own counter; reset 0. -/
  free : Nat
deriving DecidableEq, Repr

/-- A ring that the host has not set up (Table 9.5). -/
def Ring.reset : Ring := { base := 0, size := 0, head := 0, tail := 0, phase := true }

/-- A stream that is not started (R281). -/
def Stream.reset : Stream :=
  { started := false, starting := false, stopping := false, draining := false, lastFrame := 0, chain := none }

/-- A buffer set that is free and unbound (R279). -/
def BufSet.reset : BufSet := { state := .free, entries := [] }

/-- A context after reset (chapter 9). -/
def Context.reset : Context :=
  { auth := none, challenge := none, authFails := 0, lockUntil := none, sq := .reset, cq := .reset, eq := .reset
    ringsOn := false, ringErr := 0, fetchStop := false, busOff := false, irqStatus := 0, irqMask := 7, irqHold := 0, irqBack := 0
    irqAt := [0, 0], replies := [], events := [], evtSeq := 0, lost := none, heldReset := none, sqSlots := [], inflight := [],
      staged := [], evtMask := 0
    sets := List.replicate 16 .reset, overflow := none, dpAddr := 0, dpStatus := 0, mv := .reset, sealNext := 0 }

/-- The clocks while PORST_N is low (Table 12.6, Table 12.7). -/
def Clocks.reset : Clocks :=
  { oscSettle := 0, refsel := 0, crystal := .idle, pllA := .off, pllC := .off, pllM := .off, srcA := 2, srcNext := 2
    rcTrim := 512, rcErr := 0, rcTrimmed := false, trimAt := 0, loss := 0, cause := 0, pfw := false, pfwSeen := false
    pfwAt := 0, pfwSeenC := false, crystalAt := 0, perst := false, glnTrained := false, memTrained := false }

/-- The frame tick after reset (Table 1.4). -/
def Ticks.reset : Ticks :=
  { state := .internal, running := false, next := 0, entered := 0, last := none, lastAccepted := false, measured := none
    d2 := false, skip := false, suppressed := none, newSource := false, fsLevel := false, fsRun := 0, fsArmed := false, fsCount := 0
    nextFrame := 0, frameNum := 0, prev := none, latRows := 0, margin := 0
    mosaicW := 0, mosaicH := 0 }

/-- A bias output at 0 V, settled (Table 2.9, Table 12.7). -/
def Bias.reset : Bias := { level := 0, settled := true, arrived := none, fault := false }

/-- A digital port after reset (R78). -/
def DigPort.reset : DigPort := { fv := false, seen := false, dropped := false, lines := 0, times := [], clk := 0 }

/-- An output that stays low. -/
def Pulses.low : Pulses := { first := 0, width := 0, period := 0, count := 0 }

/-- Control outputs low (Table 12.7). -/
def Wave.low : Wave := { tsync := .low, trow := .low, tintL := .low, tintS := .low, tclkAt := 0, tclkRate := 0, tclkEdges := 0 }

/-- A tile after reset: off, TEN low, outputs at 0 V (Table 2.9, Table 12.7). -/
def TileSt.reset : TileSt :=
  { mode := .off, ten := false, control := false, woken := false, wakeAt := 0, wave := .low, ramp := 0, zeroAt := none
    vdet := .reset, vskim := .reset
    vguard := .reset, rowPtr := 0, integ := none, holds := none, firstMissing := false, unsettled := false, dig := .reset
    faulted := false }

/-- Drift and flysheet of a tile after reset (Table 5.8). -/
def Drift.reset : Drift :=
  { tsNow := 0, tsFly := 0, cmBase := 0, exc := 0, tsCnt := 0, cntSet := false, hasRef := false, moving := false
    lastRef := 0, lastRefTime := 0, cfgChanged := false, cmChanged := false, reasons := 0, force := false, tmaxDue := false
    dueSince := none, inhibit := none, step := .off, cause := 0, inFault := false, pos := none, posPin := false, posSince := 0
    drive := .off, pulseAt := 0, pulseEnd := 0, pulseHeld := none, edge := false, cycle := none, stale := .live
    openWait := false, degraded := false
    rate := 0, refRow := 0, past := [], acts := 0, actsNew := 0, blocks1 := [], blocks2 := [], lo := 0, hi := 0, w := 0, clamp := false
    kept := false, prevPair := none, tref := 0, cands := [], candCnt := 0, staticCnt := 0, markCnt := 0
    histEmpty := true, wasStale := false, uncal := true, lastBlock := List.replicate 12 0 }

/-- The housekeeping converter before the F-die leaves reset (Table 3.6b). -/
def Hk.reset : Hk :=
  { on := false, round := [], inj := none, waiting := false, due := 0, newCfg := false
    regular := (List.range 32).map fun i => 0x2900 + i, period := 100, injected := [0x0AA1, 0x2920, 0x0A9E], trig := 15
    last := List.replicate 32 0, shown := List.replicate 32 0
    remote := List.replicate 8 none, queue := [], refReady := false, refAt := none
    trim := List.replicate 64 (0, 0x4000, true) }

/-- Thermal control after reset (Table 12.9). -/
def Thermal.reset : Thermal :=
  { gov := 0, govSensor := 0, govF := 0, govSensorF := 0, shutValue := 0, stage := 0, warn := false, throttle := false
    stage2Due := false, stage1At := none, shutdown := false, resume := false, broken := 0, dev := List.replicate 14 0, conflict := 0,
      peak := 0 }

/-- The NV store as delivered (R371, R379; log 5). Logical pages 0 to 3839 stand on the physical pages of the same
number, and the 192 spares follow them. -/
def Nv.reset : Nv :=
  { pages := [], txn := 0, spares := (List.range 192).map (3840 + ·), wear := [], records := [], journalAt := 0, buffer := []
    entered := [], last := 0, firstAt := none, running := none, waiting := [], lock := 0, fails := List.replicate 8 0, low := false }

/-- The ledger as delivered: every count 0, period 0 open since time 0 (R386, R389; log 5). -/
def Ledger.reset : Ledger :=
  { minutes := 0, time := 0, bands := List.replicate 8 0, pulses := List.replicate 8 0, warnings := 0, stage2 := 0
    shutdowns := 0, regress := 0, openIdx := 0, closed := 0, start := 0, openMin := 0, openPulses := 0, openFlag := false
    log := [] }

/-- OTP as delivered (Table 10.5; log 6). -/
def Otp.reset : Otp :=
  { grade := 1, revision := 0xB0, trim := List.replicate 64 (0, 0x4000, true), skew := List.replicate 8 0, rcTrim := 512, owned := false
    slots := List.replicate 4 (0, []), arb := 0, epoch := 0, transfer := none }

/-- The security core after reset (chapter 10; log 6). -/
def Sec.reset : Sec :=
  { otp := .reset, flash := [[], []], runningSlot := none, dl := none, draws := 0, bootDraw := none, restartAt := none
    resetDue := none, bootedAt := 0, rollback := none, trialDue := false, trial := none }

/-- One receiving side of a link after reset (R44). -/
def LinkSide.reset : LinkSide :=
  { queue := [], txSeq := 0, replay := [], rxSeq := 0, sent := none, unacked := 0, window := 0, windowAt := 0
    partials := [[], [], [], []], flits := [] }

/-- The links after reset: down (Table 1.8, Table 11.13). -/
def Links.reset : Links :=
  { gln := .down, vxState := .down, width := 0x44, failed := 0, fc := .reset, cf := .reset, vx := .reset, retrainAt := 0
    wordsFC := [], wordsCF := [], numFC := 0, numCF := 0, ackFC := 0, ackCF := 0, actFC := 0, actCF := 0, raised := [] }

/-- The pair after reset (Tables 11.3 and 11.13). -/
def Pair.reset : Pair :=
  { mode := .single, role := 2, own := 0, raising := 0, peerRst := false, detectAt := 0, alive := false, sentAt := none
    rcvdAt := none, beat := none, aliveFault := false, peerId := List.replicate 16 0, failovers := 0, detection := 0
    leaveCause := 0, detectFrame := 0, mirrorAge := List.replicate 8 255, mirrorOpen := 0, peerD2 := false, held := 0
    heldTill := 0, rewind := none, beatOff := false, sync := [], verdicts := [], transfer := none, key := [], sent := 0
    giving := false, asked := false, handed := false, mirrors := [], peerBundle := none, ownBundle := false, bundleTxn := none
    failedTags := [] }

/-- A counter unit after reset (R398). -/
def CounterUnit.reset : CounterUnit := { cycles := 0, cnt := List.replicate 8 0, ovf := 0, before := [] }

/-- A lane after reset (R406). -/
def Lane.reset : Lane := { retired := 0, wasted := 0, starved := 0, stalled := 0, pending := 0 }

/-- Counters and sampling after reset (Table 14.4). -/
def Perf.reset : Perf :=
  { units := List.replicate 16 .reset, lanes := List.replicate 8 .reset, upTo := 0, snapSeq := 0, snapIdx := 0
    latched := [], tickCnt := 0, lfsr := 1, samples := [], entries := [], nextEntry := 0, entering := []
    inPipe := [], tagged := [], biasClear := 0, biasMark := 0 }

/-- Boundary cells with every output low, and so PEER_RST_N and LPDDR5X RESET_N asserted. -/
def cellsLow : Cells :=
  { ten := 0, tclk := 0, tsync := 0, trow := 0, tintS := 0, tintL := 0, flyA := 0, flyB := 0, town := 0, sel := 0, selEn := false
    sck := 0, sdo := 0, prdy := 0, alive := false, peerRst := false, memReset := false, memClock := false, flashCs := false
    pcieTx := 0, vxTx := 0, out0 := 0, out1 := 0, flash := 0, memBus := 0 }

/-- Debug access after reset (Table 14.5). -/
def Debug.reset : Debug :=
  { level := 0, minutes := 0, forever := false, nonce := none, halted := List.replicate 4 none, locks := [], breaks := []
    coreOf := [0, 1, 2, 3, 0, 1, 2, 3], tap := .bypass, haltMarks := List.replicate 4 0, ages := List.replicate 4 0
    heldEvents := [], preload := cellsLow }

/-- An auxiliary camera after reset (Table 8.4). -/
def AuxCam.reset : AuxCam := { newest := 0, valid := false, seq := 0, subAt := 0 }

/-- The auxiliary path and replay after reset (Table 8.4). -/
def Aux.reset : Aux :=
  { queue := [], job := none, cams := List.replicate 4 .reset, fuseState := [0, 0], op := 0, done := 0, cause := 0
    stopReq := false, busySince := none, src := 0, dst := 0, capture := none }

/-- A peg port after reset (Table 13.10). -/
def Peg.reset : Peg :=
  { status := 0, bytes := 0, xfer := none, held := none, rx := List.replicate 32 0, queued := none, rxFifo := [], rxFrame := [],
    txFrames := [],
    txPos := 0
    lastTx := 0xFF, discard := false, selected := false }

/-- A CSI-2 port after reset (Table 7.14). -/
def OutPort.reset : OutPort := { state := 0, sending := none, stream := .reset, agc := none, lut := [], hist := [], pal := [] }

/-- The sequencer after reset (R60). -/
def Seq.reset : Seq :=
  { frame := none, slot := 0, cdie := none, lead := none, pointers := 0, sampling := [], dacAt := none, shift := 0 }

/-- External memory before training (Table 10.14; log 3). -/
def Mem.reset : Mem :=
  { gib := 8, cells := [], chan := List.replicate 8 (0, 0), rate := List.replicate 8 0
    slow := 0, load := 0 }

/-- The pins in reset (Table 12.7). -/
def Pins.reset : Pins := { highZ := false, sel := 15, selEn := none, memOn := false, flashOn := false }

/-- The device powered with PORST_N low (Table 12.5, Table 12.7): every field at its Reset column or at the value that
its docstring names. The first event that lets it run is PORST_N_RELEASE. -/
def State.reset : State :=
  { pending := [], time := 0, boot := .inReset, clk := .reset, regs := [], tick := .reset, scene := [], seq := .reset, frames := []
    tiles := List.replicate 8 .reset, drift := List.replicate 8 .reset, hk := .reset, thm := .reset, bundle := none
    session := none, act := .none, held := [], history := [], ctxs := List.replicate 8 .reset, gens := [], fetches := 0, nv := .reset
    ledger := .reset, sec := .reset, links := .reset, pair := .reset, perf := .reset, dbg := .reset, aux := .reset
    pegs := List.replicate 2 .reset, pins := .reset, outs := List.replicate 2 .reset, mem := .reset, out := [], wstatus := .done,
      free := 0 }

/-- No command of the device ends in a fault of the model: every fault of the spec (a die fault, a clock loss, a
thermal shutdown, a failed boot) is a state from which the device goes on, and is a next state here. -/
inductive Fault where
deriving DecidableEq, Repr

/-- Why a command is turned away. -/
inductive Refusal where
  /-- Raised by exec's arm of a row that has no meaning yet: safe, no claim can be made of it. -/
  | notModelled (mnemonic : String)
deriving DecidableEq, Repr

end Sys2Proof.Machine
end

