-- ==== Sys2Proof/Machine/Flits.lean ====
section
/-!
DEFINITION. The CRCs of the links and of the NV store, flits and transmitters of the guyline and the Vexnex link (R41 to R44, R46,
R325), the messages to the peer (R326), and what crosses the guyline (R18, R19, R43).
-/
namespace Sys2Proof.Machine

/-! CRCs. -/

/-- One bit of a CRC of w bits with a polynomial, most significant bit first. -/
def crcBit (w poly reg : Nat) (b : Bool) : Nat :=
  let top := reg / 2 ^ (w - 1) % 2 == 1
  let r := reg * 2 % 2 ^ w
  if top != b then r ^^^ poly else r

/-- A CRC over bits in order, not reflected, without a final inversion. -/
def crcBits (w poly init : Nat) (bs : List Bool) : Nat := bs.foldl (crcBit w poly) init

/-- The n bits of a number, most significant first. -/
def bitsMsb (n v : Nat) : List Bool := ((List.range n).map fun i => bitOf v i).reverse

/-- The n bits of a number, least significant first. -/
def bitsLsb (n v : Nat) : List Bool := (List.range n).map fun i => bitOf v i

/-- CRC-16 with polynomial 0x1021 and initial value 0xFFFF (Table 1.6, R79). -/
def crc16 (bs : List Bool) : Nat := crcBits 16 0x1021 0xFFFF bs

/-- The check value of a sideband word: x^4 + x + 1 over bit times 1 to 14 (Table 1.7). The initial value is 0 (log 11). -/
def crc4 (bs : List Bool) : Nat := crcBits 4 0x3 0 bs

/-- CRC-32C of a byte string: the Castagnoli polynomial, reflected, initial value and final inversion all ones (R371;
log 12). -/
def crc32c (b : Bytes) : Nat :=
  (b.foldl (fun r x => (List.range 8).foldl (fun r _ => if r % 2 = 1 then r / 2 ^^^ 0x82F63B78 else r / 2) (r ^^^ x.toNat))
    0xFFFFFFFF) ^^^ 0xFFFFFFFF

/-! Flits (Table 1.6). -/

def flitSeq (v : Nat) : Nat := v % 256
def flitClass (v : Nat) : Nat := bitsOf v 9 8
def flitSom (v : Nat) : Bool := bitOf v 10
def flitEom (v : Nat) : Bool := bitOf v 11
def flitLink (v : Nat) : Bool := bitOf v 12
def flitCode (v : Nat) : Nat := bitsOf v 23 16

/-- PAYLOAD, 28 bytes, byte 0 in the lowest bits (R8). -/
def flitPayload (v : Nat) : Bytes := leBytes 28 (bitsOf v 239 16)

/-- The CRC of a flit: over bits 239 to 0, bit 239 first (DEDUCED, log 25). -/
def flitCrc (v : Nat) : Nat := crc16 (bitsMsb 240 (v % 2 ^ 240))

def flitGood (v : Nat) : Bool := flitCrc v == bitsOf v 255 240

/-- A flit of its first 240 bits, with its CRC. -/
def withCrc (v : Nat) : BitVec 256 := BitVec.ofNat 256 (v % 2 ^ 240 + 2 ^ 240 * flitCrc v)

/-- The data flit of a piece under a sequence number. -/
def Piece.flit (p : Piece) (seq : Nat) : BitVec 256 :=
  withCrc (seq % 256 + 256 * (p.cls % 4) + (if p.som then 1024 else 0) + (if p.eom then 2048 else 0)
    + 65536 * leNat (padTo 28 p.payload))

/-- A link flit: 1 ACK, 2 NAK, 3 IDLE. -/
def linkFlitOf (code seq : Nat) : BitVec 256 := withCrc (seq % 256 + 4096 + 65536 * code)

/-- The pieces of a message: 28 bytes each, the last one filled with zero bytes. -/
def piecesOf (cls : Nat) (msg : Bytes) : List Piece :=
  let n := max 1 ((msg.length + 27) / 28)
  (List.range n).map fun i => { cls, som := i == 0, eom := i + 1 == n, payload := sliceB (28 * i) 28 msg }

/-! Sides. -/

def State.side (s : State) : LinkDir → LinkSide
  | .fc => s.links.fc
  | .cf => s.links.cf
  | .vx => s.links.vx

def State.modSide (s : State) (d : LinkDir) (f : LinkSide → LinkSide) : State :=
  match d with
  | .fc => { s with links := { s.links with fc := f s.links.fc } }
  | .cf => { s with links := { s.links with cf := f s.links.cf } }
  | .vx => { s with links := { s.links with vx := f s.links.vx } }

def State.linkUp (s : State) : LinkDir → Bool
  | .fc | .cf => s.links.gln == .up
  | .vx => s.links.vxState == .up

/-- When an event raised now is raised (Table 9.19). -/
def State.stamp (s : State) : Stamp := { time := s.time, frame := s.tick.frameNum }

/-! Transmission (R43, R44). -/

/-- Flits leave a transmitter now: they join its count by instant. What lies more than 100 µs back is not told apart any more. -/
def LinkSide.noteFlits (k : LinkSide) (now : Time) (n : Nat) : LinkSide :=
  let old := k.flits.filter fun e => e.1 + 100000 < now
  let sum : List (Time × Nat) := if old.isEmpty then [] else [(now - 100001, (old.map (·.2)).sum)]
  { k with flits := sum ++ (k.flits.filter fun e => !(e.1 + 100000 < now)) ++ [(now, n)] }

/-- The class that a transmitter serves next: the lowest that waits. -/
def nextClass (q : List Piece) : Option Nat := (List.range 4).find? fun k => q.any fun p => p.cls == k

/-- A waiting flit leaves: the oldest of the lowest class, with the next SEQ, into the replay buffer. A transmitter with 128
flits outstanding stalls. -/
def LinkSide.sendOne (k : LinkSide) (now : Time) : Option LinkSide :=
  if 128 ≤ k.replay.length then none
  else
    match nextClass k.queue with
    | none => none
    | some c =>
      match k.queue.find? fun p => p.cls == c with
      | none => none
      | some p =>
        some { k.noteFlits now 1 with
          queue := k.queue.eraseP fun p => p.cls == c, txSeq := (k.txSeq + 1) % 256
          replay := k.replay ++ [(p.flit k.txSeq, now)] }

/-- Flits leave as long as the replay buffer has room. -/
def LinkSide.pump (now : Time) : Nat → LinkSide → LinkSide
  | 0, k => k
  | n + 1, k => match k.sendOne now with
    | some k => k.pump now n
    | none => k

/-- A transmitter sends what waits, while its link is up (R46). -/
def State.pump (s : State) (d : LinkDir) : State :=
  if s.linkUp d then s.modSide d (LinkSide.pump s.time 128) else s

/-- A message is raised in a traffic class. -/
def State.sendMessage (s : State) (d : LinkDir) (cls : Nat) (msg : Bytes) : State :=
  (s.modSide d fun k => { k with queue := k.queue ++ piecesOf cls msg }).pump d

/-! Messages to the peer (R325, R326). -/

/-- The kinds of message that a pair exchanges, with their traffic classes (R325). The codes are the model's (log 107). -/
inductive PairMsg where
  | heartbeat | tick | handover | row | stateRecord | command | reply | event | paramSync | bundle | mirror | request
deriving DecidableEq, Repr

def PairMsg.cls : PairMsg → Nat
  | .heartbeat | .tick | .handover => 0
  | .row | .stateRecord => 1
  | .command | .reply | .event | .paramSync | .request => 2
  | .bundle | .mirror => 3

def PairMsg.code : PairMsg → Nat
  | .heartbeat => 1
  | .tick => 2
  | .handover => 3
  | .row => 4
  | .stateRecord => 5
  | .command => 6
  | .reply => 7
  | .event => 8
  | .paramSync => 9
  | .bundle => 10
  | .mirror => 11
  | .request => 12

/-- A message to the peer, sealed under the link key of the join with the message's number as nonce (R326). -/
def State.pairSend (s : State) (m : PairMsg) (body : Bytes) : State :=
  let n := s.pair.sent
  let sealed_ := padTo (17 + body.length) (Config.gcmSeal s.pair.key (beBytes 12 n) [] (leBytes 1 m.code ++ body))
  ({ s with pair := { s.pair with sent := n + 1 } } : State).sendMessage .vx m.cls sealed_

/-- This device is the LEAD, or the PARTNER, of a pair that stands. -/
def State.isLead (s : State) : Bool := s.pair.mode == .paired && s.pair.role == 0
def State.isPartner (s : State) : Bool := s.pair.mode == .paired && s.pair.role == 1

/-- The devices of a pair are joined or joining: messages between them act. -/
def State.linked (s : State) : Bool := s.pair.mode == .paired || s.pair.mode == .joining

def PairMode.code : PairMode → Nat
  | .single => 0
  | .detached => 1
  | .joining => 2
  | .paired => 3
  | .sole => 4

/-- A heartbeat: frame number, pair state, throttle stage, LEAVING and its cause (R338). -/
def State.sendHeartbeat (s : State) (leaving : Bool) (cause : Nat) : State :=
  s.pairSend .heartbeat
    (leBytes 6 s.tick.frameNum ++ leBytes 1 s.pair.mode.code ++ leBytes 1 s.thm.stage ++ leBytes 1 (if leaving then 1 else 0)
      ++ leBytes 1 cause)

/-- Parameter values as they cross the link: ID and value. -/
def valueBytes (es : List (Nat × Word)) : Bytes := es.flatMap fun e => leBytes 2 e.1 ++ leBytes 4 e.2.toNat

/-- The word of a held pixel (Table 11.6): both bands carry the marker value. -/
def heldWord : Nat := 2 ^ 45 + 0x80000 + 2 ^ 20 * 0x80000

/-- A row to the peer: its header and its words (R333). -/
def State.sendRow (s : State) (frame tile y : Nat) (words : List Nat) : State :=
  s.pairSend .row (leBytes 6 frame ++ leBytes 1 tile ++ [0] ++ leBytes 2 y ++ List.replicate 6 0 ++ words.flatMap (leBytes 8))

/-- The shared blocks SYS, TILE, AFE, ADC, HK, PIPE, DRIFT/FLY, DEF and DMS (R331). -/
def sharedId (id : Nat) : Bool := [0x00, 0x04, 0x05, 0x06, 0x07, 0x08, 0x0A, 0x0B, 0x0C].contains (id / 1024)

/-- The LEAD forwards a write of a shared register (R331). -/
def State.shareWrite (s : State) (id v : Nat) : State :=
  if s.isLead && sharedId id then s.pairSend .paramSync (0 :: valueBytes [(id, BitVec.ofNat 32 v)]) else s

/-- The other die is reached over the guyline; a retrain delays what crosses it (R18, R46). -/
def State.fdieUp (s : State) : Bool := s.links.gln == .up || s.links.gln == .retraining

/-- A LEAD tells its PARTNER that the bundle under transfer is given up, with a status code (R335). -/
def State.endBundle (s : State) (code : Nat) : State :=
  if s.isLead then
    ({ s with pair := { s.pair with peerBundle := none, ownBundle := false } } : State).pairSend .bundle ([3] ++ leBytes 1 code)
  else s

/-! Messages on the guyline (R18, R19, R43). The spec gives their contents, and the layout of a class-0 message only; the
layout of the others is the model's (log 107). -/

/-- What crosses the guyline as data flits. Of class VIDEO: a row of a tile, a frame start, a housekeeping result with its HK_LAST
word, and the C-die's sensors. Of class CONTROL: an event of the F-die that the C-die reports, with when it was raised, values on
their way to registers of the F-die or from them, an NV command, bytes of a peg port, a flysheet command, the trim that SC sends at
boot. Of class BULK: data of an NV page, and of a firmware image (R43, R93). -/
inductive LinkMsg where
  | videoRow (frame tile row : Nat) (late : Bool) (words : List Nat)
  | frameStart (frame : Nat) (ts : Time)
  | hkResult (ch word : Nat)
  | sensors (vals : List Nat)
  | event (at_ : Stamp) (code : Nat) (detail : Bytes)
  | values (entries : List (Nat × Word))
  | nvCommand (opcode page off len : Nat)
  | pegBytes (port : Nat) (data : Bytes)
  | flysheet (tile dir len : Nat)
  | adcTrim (rows : List (Int × Nat × Bool))
  | nvData (page off : Nat) (data : Bytes)
  | firmware (slot off : Nat) (data : Bytes)
deriving DecidableEq, Repr

def LinkMsg.bytes : LinkMsg → Bytes
  | .videoRow frame tile row late words =>
    [1] ++ leBytes 6 frame ++ leBytes 1 tile ++ leBytes 2 row ++ leBytes 1 (if late then 1 else 0) ++ leBytes 2 words.length
      ++ words.flatMap (leBytes 2)
  | .frameStart frame ts => [2] ++ leBytes 6 frame ++ leBytes 8 ts
  | .hkResult ch word => [3] ++ leBytes 1 ch ++ leBytes 4 word
  | .sensors vals => [4] ++ leBytes 1 vals.length ++ vals.flatMap (leBytes 2)
  | .event at_ code detail =>
    [5] ++ leBytes 2 code ++ leBytes 1 detail.length ++ leBytes 8 at_.time ++ leBytes 6 at_.frame ++ detail
  | .values entries => [6] ++ leBytes 2 entries.length ++ valueBytes entries
  | .nvCommand opcode page off len => [7] ++ leBytes 2 opcode ++ leBytes 2 page ++ leBytes 2 off ++ leBytes 4 len
  | .pegBytes port data => [8] ++ leBytes 1 port ++ leBytes 2 data.length ++ data
  | .flysheet tile dir len => [9] ++ leBytes 1 tile ++ leBytes 1 dir ++ leBytes 2 len
  | .adcTrim rows =>
    [11] ++ leBytes 1 rows.length
      ++ rows.flatMap fun r => leBytes 2 (unsigned 16 r.1) ++ leBytes 2 r.2.1 ++ leBytes 1 (if r.2.2 then 1 else 0)
  | .nvData page off data => [10] ++ leBytes 2 page ++ leBytes 2 off ++ leBytes 2 data.length ++ data
  | .firmware slot off data => [12] ++ leBytes 1 slot ++ leBytes 4 off ++ leBytes 4 data.length ++ data

/-- The traffic class of a message (R43). -/
def LinkMsg.cls : LinkMsg → Nat
  | .videoRow _ _ _ _ _ | .frameStart _ _ | .hkResult _ _ | .sensors _ => 1
  | .event _ _ _ | .values _ | .nvCommand _ _ _ _ | .pegBytes _ _ | .flysheet _ _ _ | .adcTrim _ => 2
  | .nvData _ _ _ | .firmware _ _ _ => 3

/-- The message that bytes spell, of the kinds that act as they arrive. The other kinds carry what a command does at the other die;
the command's own step does it (log 107). -/
def parseMsg (b : Bytes) : Option LinkMsg :=
  match leAt b 0 1 with
  | 1 => some (.videoRow (leAt b 1 6) (leAt b 7 1) (leAt b 8 2) (bitOf (leAt b 10 1) 0)
      ((List.range (leAt b 11 2)).map fun i => leAt b (13 + 2 * i) 2))
  | 2 => some (.frameStart (leAt b 1 6) (leAt b 7 8))
  | 3 => some (.hkResult (leAt b 1 1) (leAt b 2 4))
  | 4 => some (.sensors ((List.range (leAt b 1 1)).map fun i => leAt b (2 + 2 * i) 2))
  | 5 => some (.event { time := leAt b 4 8, frame := leAt b 12 6 } (leAt b 1 2) (sliceB 18 (leAt b 3 1) b))
  | 11 => some (.adcTrim ((List.range (leAt b 1 1)).map fun i =>
      (signed 16 (leAt b (2 + 5 * i) 2), leAt b (4 + 5 * i) 2, bitOf (leAt b (6 + 5 * i) 1) 0)))
  | _ => none

/-- A message leaves a die for the other one. A guyline that is down takes none (R18, R49). -/
def State.sendAcross (s : State) (d : LinkDir) (m : LinkMsg) : State :=
  if s.links.gln == .down then s else s.sendMessage d m.cls m.bytes

/-- A message leaves the F-die. -/
def State.sendVideo (s : State) (m : LinkMsg) : State := s.sendAcross .fc m

/-- An event that the F-die raises; the C-die reports it to the contexts as its message arrives (R18, R43). -/
def State.fdieEvent (s : State) (code : Nat) (detail : Bytes) : State := s.sendAcross .fc (.event s.stamp code detail)


/-- Values of F-die registers cross, if there are any (R18, R43). -/
def State.valuesAcross (s : State) (d : LinkDir) (es : List (Nat × Word)) : State :=
  if es.isEmpty then s else s.sendAcross d (.values es)

/-! Register writes with a row of their own. -/

/-- A value goes to a register of the F-die (R18, R43). -/
def State.valueAcross (s : State) (id v : Nat) : State := s.sendAcross .cf (.values [(id, BitVec.ofNat 32 v)])

/-- A register of the F-die takes a value by a row of its own: FAILED_FAULT without the guyline (R18, R282; log 126). -/
def State.writeAcross (s : State) (id v : Nat) (act : State → State) : State :=
  if s.fdieUp then { act (s.valueAcross id v) with wstatus := .done } else { s with wstatus := .failedFault }

/-- A shared RW register of the F-die takes a value by a row of its own: the PARTNER of a pair takes none, and a LEAD forwards it
(R331). -/
def State.writeShared (s : State) (id v : Nat) (act : State → State) : State :=
  if s.isPartner then { s with wstatus := .notPermitted } else s.writeAcross id v fun s => (act s).shareWrite id v

end Sys2Proof.Machine
end

