-- ==== Sys2Proof/Machine/ParamTable.lean ====
section
/-!
DEFINITION. The parameters of Tables 1.2, 1.4, 1.8, 2.9, 3.5, 3.6a, 3.6b, 4.8, 4.9, 4.10, 5.8, 6.7, 7.12 to 7.15,
8.4, 9.22, 10.14, 10.15, 11.13, 12.8, 12.9, 13.9, 13.10, 14.4 and 14.5: their IDs, widths, access codes, reset values
and the range that a PARAM_WRITE checks (R286, R287). A parameter of several indexes counts them in ID order.
-/
namespace Sys2Proof.Machine

/-- The access codes of Table 0.5. -/
inductive Access where | ro | rw | wo | w1c | rc | rws
deriving DecidableEq, Repr

/-- The parameters by name. -/
inductive Param where
  | tileEn | tileX | tileY | tileFlip | tickSrc | tickPeriod | fsyncPol | fsyncMinPeriod | fsyncNomPeriod |
    fsyncLossPolicy | fsyncEarlyCnt | tickState | tickMeasPeriod | tickDiv | frameNumLo | frameNumHi |
    pipeLatRows | budgetMargin | tickMissingCnt | dropCnt | mosaicW | mosaicH | glnRetrainLim | glnReplayCntFc |
    glnReplayCntCf | glnCrcCntFc | glnCrcCntCf | glnRetrainCnt | glnWidth | glnState | glnSbErrCnt |
    glnLostRowsCnt | tileKind | actCols | actRows | refRows | tapMode | hdrEn | intLStart | intLLen | intSLen |
    intRatio | winEn | winStart | winRows | tileWake | vdetCode | vskimCode | vguardCode | biasSlew | biasStatus |
    biasFaultCnt | digRefCols | digFmt | digLag | digClkMeas | digCrcCnt | digFramingCnt | lateRowCnt | tileState |
    afeGain | afeOfs | afeClipCnt | adcTrimOfs | adcTrimGain | adcRefen | adcRefStatus | ilvEn | adcRnrCnt |
    adcSphase | ilvSkew | hkRegEnt | hkInjEnt | hkLast | hkRegLen | hkRound | hkInjLen | hkInjTrig | hkInjFire |
    hkInjDrop | hkQEn | hkQueue | hkQLevel | hkQOvfCnt | hkRoundLateCnt | hkRoundSkipCnt | hkState | pipeStageEn |
    mergeKnee | mergeRatioOvr | mergeRatio | interpState | trefUsed | pipeSatCnt | defDynSigmaLim | defDynOfsLim |
    defStaticCnt | defMarkCnt | defCandCnt | defCandAddr | specEn | specPhase | flyCfg | flyDts | flyTmax |
    flyConfCfg | flyRateLim | flyIsns | sboCfg | sboTh | flyState | driftExc | tsFly | tsRate | flyLastFrame |
    flyActCnt | flyEvtCnt | sboClampCnt | flyMaxConc | driftMapAddr | calState | calActiveId | calActiveVer |
    calSets | calTileMask | calSetTemp | calTrefCh | calTiles | calVerFloor | calImportTmo | calTagFailCnt |
    calRereadFailCnt | calChunkFailCnt | calActFrameLo | calActFrameHi | calAreaAddr | calAreaSize |
    calActiveArea | radQty | radEpsMode | radTblSel | radTblAddr | radMapSel | radMapAddr | radMarkCnt |
    radClampCnt | filtEn | filtTfK | filtTfTh | filtSfTh | filtHistAddr | outMvFmt | outCropPos | outCropSize |
    outCropFmt | outPortCfg | outVpSrcPos | outVpSrcSize | outVpOutSize | outAgcCfg | outAgcMan | outAgcPlat |
    outPalSel | outPalAddr | outMarkRgb | outIsoRange | outIsoCfg | outPortState | outSkipCnt | outNobufCnt |
    statHistLo | statHistBinw | statRectPos | statRectSize | statEn | statHotMin | auxCamCfg | auxCamSize |
    auxBlack | auxCcm | auxHomog | auxSubmit | auxState | auxDropCnt | auxFuseCfg | auxFuseState | auxEdgeRgb |
    auxAreaAddr | replayCtl | replayCfg | replaySrc | replayDst | replayState | replayAreaAddr | replayAreaSize |
    hostCtxBind | hostTagBase | hostTagCount | hostCtxState | hostInflight | hostStaleCnt | hostRejectCnt |
    hostEvtMask | hostEvtLost | hostIrqMod | hostDpRefuseCnt | memSize | memRegionAddr | memRegionSize |
    memChRate | memChState | memSlowLim | memSlowMask | memTagFailCnt | memLoad | memStageSize | secLifecycle |
    secOwnerSlots | secFwArb | secGrantEpoch | secSealN | secFwSlotState | secFwConfirmBoots | secFwConfirmTime |
    secFwCosign | secAuthFailCnt | secGrantState | secSealLogAddr | secFwVer | pairBoard | pairPeerId |
    pairRolePref | pairFwd | pairState | pairRole | pairOwn | pairLinkState | pairRetrainLim | pairReplayCnt |
    pairCrcCnt | pairRetrainCnt | pairAuthCnt | pairAliveErrCnt | pairFailoverCnt | pairJoinTmo | clkStraps |
    clkRefinFreq | clkRcTrim | clkRcTrimSrc | clkRcErr | clkState | clkLoss | clkLossCnt | clkASrc | thmWarn |
    thmThrottle | thmShut | thmGov | thmStage | thmBroken | thmDevCnt | thmResume | thmShutCnt | thmThrottleCnt |
    thmPfw | thmPfwCnt | thmResetCause | nvAutocommit | nvState | nvBufPages | nvTxnLo | nvTxnHi | nvSpares |
    nvWear | nvRecoverCnt | nvCommitFailCnt | nvLock | nvPwSet | nvPwFail | ledgerHostTime | ledgerTime |
    ledgerMinutes | ledgerOpen | pegCfg | pegRdyTmo | pegXfer | pegXferStatus | pegStatus | pegRdyToCnt |
    pegUnderrunCnt | pegRxOvfCnt | pegTx | pegRx | perfCtl | perfEvsel | perfSnapCfg | perfSnapAddr | perfSnapSeq |
    perfSnapIdx | sampleCfg | sampleSeed | sampleAddr | sampleLevel | sampleLostCnt | perfClear | dbgState |
    dbgHalt | dbgLocks | dbgRevokeCnt | dbgUnlockFailCnt
deriving DecidableEq, Repr

/-- A row of a parameter table: first ID, step between IDs, number of IDs, width in bits, access code, and whether
the value is kept in the NV store. -/
structure ParamRow where
  base : Nat
  stride : Nat
  count : Nat
  width : Nat
  access : Access
  persistent : Bool := false
deriving DecidableEq, Repr

/-- The row of a parameter. -/
def Param.row : Param → ParamRow
  -- Table 1.2
  | .tileEn => { base := 0x1000, stride := 40, count := 8, width := 1, access := .rws }
  | .tileX => { base := 0x1001, stride := 40, count := 8, width := 15, access := .rws }
  | .tileY => { base := 0x1002, stride := 40, count := 8, width := 14, access := .rws }
  | .tileFlip => { base := 0x1003, stride := 40, count := 8, width := 2, access := .rws }
  -- Table 1.4
  | .tickSrc => { base := 0x0000, stride := 1, count := 1, width := 1, access := .rws }
  | .tickPeriod => { base := 0x0001, stride := 1, count := 1, width := 32, access := .rws }
  | .fsyncPol => { base := 0x0002, stride := 1, count := 1, width := 1, access := .rws }
  | .fsyncMinPeriod => { base := 0x0003, stride := 1, count := 1, width := 32, access := .rws }
  | .fsyncNomPeriod => { base := 0x0004, stride := 1, count := 1, width := 32, access := .rws }
  | .fsyncLossPolicy => { base := 0x0005, stride := 1, count := 1, width := 1, access := .rws }
  | .fsyncEarlyCnt => { base := 0x0006, stride := 1, count := 1, width := 32, access := .rc }
  | .tickState => { base := 0x0007, stride := 1, count := 1, width := 3, access := .ro }
  | .tickMeasPeriod => { base := 0x0008, stride := 1, count := 1, width := 32, access := .ro }
  | .tickDiv => { base := 0x0009, stride := 1, count := 1, width := 2, access := .ro }
  | .frameNumLo => { base := 0x000A, stride := 1, count := 1, width := 32, access := .ro }
  | .frameNumHi => { base := 0x000B, stride := 1, count := 1, width := 16, access := .ro }
  | .pipeLatRows => { base := 0x000C, stride := 1, count := 1, width := 7, access := .ro }
  | .budgetMargin => { base := 0x000D, stride := 1, count := 1, width := 32, access := .ro }
  | .tickMissingCnt => { base := 0x000E, stride := 1, count := 1, width := 16, access := .rc }
  | .dropCnt => { base := 0x000F, stride := 1, count := 1, width := 32, access := .rc }
  | .mosaicW => { base := 0x0010, stride := 1, count := 1, width := 15, access := .ro }
  | .mosaicH => { base := 0x0011, stride := 1, count := 1, width := 14, access := .ro }
  -- Table 1.8
  | .glnRetrainLim => { base := 0x0C00, stride := 1, count := 1, width := 12, access := .rw }
  | .glnReplayCntFc => { base := 0x0C01, stride := 1, count := 1, width := 16, access := .rc }
  | .glnReplayCntCf => { base := 0x0C02, stride := 1, count := 1, width := 16, access := .rc }
  | .glnCrcCntFc => { base := 0x0C03, stride := 1, count := 1, width := 16, access := .rc }
  | .glnCrcCntCf => { base := 0x0C04, stride := 1, count := 1, width := 16, access := .rc }
  | .glnRetrainCnt => { base := 0x0C05, stride := 1, count := 1, width := 16, access := .rc }
  | .glnWidth => { base := 0x0C06, stride := 1, count := 1, width := 8, access := .ro }
  | .glnState => { base := 0x0C07, stride := 1, count := 1, width := 2, access := .ro }
  | .glnSbErrCnt => { base := 0x0C08, stride := 1, count := 1, width := 16, access := .rc }
  | .glnLostRowsCnt => { base := 0x0C09, stride := 1, count := 1, width := 16, access := .rc }
  -- Table 2.9
  | .tileKind => { base := 0x1004, stride := 40, count := 8, width := 1, access := .rws }
  | .actCols => { base := 0x1005, stride := 40, count := 8, width := 12, access := .rws }
  | .actRows => { base := 0x1006, stride := 40, count := 8, width := 11, access := .rws }
  | .refRows => { base := 0x1007, stride := 40, count := 8, width := 4, access := .rws }
  | .tapMode => { base := 0x1008, stride := 40, count := 8, width := 1, access := .rws }
  | .hdrEn => { base := 0x1009, stride := 40, count := 8, width := 1, access := .rws }
  | .intLStart => { base := 0x100A, stride := 40, count := 8, width := 10, access := .rws }
  | .intLLen => { base := 0x100B, stride := 40, count := 8, width := 10, access := .rws }
  | .intSLen => { base := 0x100C, stride := 40, count := 8, width := 10, access := .rws }
  | .intRatio => { base := 0x100D, stride := 40, count := 8, width := 16, access := .ro }
  | .winEn => { base := 0x100E, stride := 40, count := 8, width := 1, access := .rws }
  | .winStart => { base := 0x100F, stride := 40, count := 8, width := 11, access := .rws }
  | .winRows => { base := 0x1010, stride := 40, count := 8, width := 8, access := .rws }
  | .tileWake => { base := 0x1011, stride := 40, count := 8, width := 16, access := .rws }
  | .vdetCode => { base := 0x1012, stride := 40, count := 8, width := 16, access := .rw }
  | .vskimCode => { base := 0x1013, stride := 40, count := 8, width := 16, access := .rw }
  | .vguardCode => { base := 0x1014, stride := 40, count := 8, width := 16, access := .rw }
  | .biasSlew => { base := 0x1015, stride := 40, count := 8, width := 7, access := .rw }
  | .biasStatus => { base := 0x1016, stride := 40, count := 8, width := 6, access := .ro }
  | .biasFaultCnt => { base := 0x1017, stride := 40, count := 8, width := 16, access := .rc }
  | .digRefCols => { base := 0x1018, stride := 40, count := 8, width := 6, access := .rws }
  | .digFmt => { base := 0x1019, stride := 40, count := 8, width := 8, access := .rws }
  | .digLag => { base := 0x101A, stride := 40, count := 8, width := 4, access := .rws }
  | .digClkMeas => { base := 0x101B, stride := 40, count := 8, width := 16, access := .ro }
  | .digCrcCnt => { base := 0x101C, stride := 40, count := 8, width := 16, access := .rc }
  | .digFramingCnt => { base := 0x101D, stride := 40, count := 8, width := 16, access := .rc }
  | .lateRowCnt => { base := 0x101E, stride := 40, count := 8, width := 16, access := .rc }
  | .tileState => { base := 0x101F, stride := 40, count := 8, width := 3, access := .ro }
  -- Table 3.5
  | .afeGain => { base := 0x1400, stride := 3, count := 64, width := 2, access := .rws }
  | .afeOfs => { base := 0x1401, stride := 3, count := 64, width := 12, access := .rws }
  | .afeClipCnt => { base := 0x1402, stride := 3, count := 64, width := 16, access := .rc }
  -- Table 3.6a
  | .adcTrimOfs => { base := 0x1800, stride := 1, count := 64, width := 16, access := .ro }
  | .adcTrimGain => { base := 0x1840, stride := 1, count := 64, width := 17, access := .ro }
  | .adcRefen => { base := 0x1880, stride := 1, count := 1, width := 1, access := .rw }
  | .adcRefStatus => { base := 0x1881, stride := 1, count := 1, width := 1, access := .ro }
  | .ilvEn => { base := 0x1882, stride := 1, count := 1, width := 32, access := .rws }
  | .adcRnrCnt => { base := 0x1883, stride := 1, count := 1, width := 16, access := .rc }
  | .adcSphase => { base := 0x1884, stride := 1, count := 8, width := 7, access := .rws }
  | .ilvSkew => { base := 0x188C, stride := 1, count := 8, width := 32, access := .ro }
  -- Table 3.6b
  | .hkRegEnt => { base := 0x1C00, stride := 1, count := 32, width := 17, access := .rws }
  | .hkInjEnt => { base := 0x1C20, stride := 1, count := 4, width := 17, access := .rws }
  | .hkLast => { base := 0x1C24, stride := 1, count := 32, width := 26, access := .ro }
  | .hkRegLen => { base := 0x1C44, stride := 1, count := 1, width := 6, access := .rws }
  | .hkRound => { base := 0x1C45, stride := 1, count := 1, width := 10, access := .rws }
  | .hkInjLen => { base := 0x1C46, stride := 1, count := 1, width := 3, access := .rws }
  | .hkInjTrig => { base := 0x1C47, stride := 1, count := 1, width := 4, access := .rws }
  | .hkInjFire => { base := 0x1C48, stride := 1, count := 1, width := 4, access := .wo }
  | .hkInjDrop => { base := 0x1C49, stride := 1, count := 1, width := 16, access := .rc }
  | .hkQEn => { base := 0x1C4A, stride := 1, count := 1, width := 1, access := .rw }
  | .hkQueue => { base := 0x1C4B, stride := 1, count := 1, width := 32, access := .rc }
  | .hkQLevel => { base := 0x1C4C, stride := 1, count := 1, width := 8, access := .ro }
  | .hkQOvfCnt => { base := 0x1C4D, stride := 1, count := 1, width := 16, access := .rc }
  | .hkRoundLateCnt => { base := 0x1C4E, stride := 1, count := 1, width := 16, access := .rc }
  | .hkRoundSkipCnt => { base := 0x1C4F, stride := 1, count := 1, width := 16, access := .rc }
  | .hkState => { base := 0x1C50, stride := 1, count := 1, width := 2, access := .ro }
  -- Table 4.8
  | .pipeStageEn => { base := 0x2000, stride := 1, count := 8, width := 11, access := .rws }
  | .mergeKnee => { base := 0x2008, stride := 1, count := 8, width := 16, access := .rws }
  | .mergeRatioOvr => { base := 0x2010, stride := 1, count := 8, width := 16, access := .rws }
  | .mergeRatio => { base := 0x2018, stride := 1, count := 8, width := 16, access := .ro }
  | .interpState => { base := 0x2020, stride := 1, count := 8, width := 26, access := .ro }
  | .trefUsed => { base := 0x2028, stride := 1, count := 8, width := 16, access := .ro }
  | .pipeSatCnt => { base := 0x2030, stride := 1, count := 8, width := 32, access := .rc }
  -- Table 4.9
  | .defDynSigmaLim => { base := 0x2C00, stride := 1, count := 8, width := 16, access := .rws }
  | .defDynOfsLim => { base := 0x2C08, stride := 1, count := 8, width := 19, access := .rws }
  | .defStaticCnt => { base := 0x2C10, stride := 1, count := 8, width := 22, access := .ro }
  | .defMarkCnt => { base := 0x2C18, stride := 1, count := 8, width := 22, access := .ro }
  | .defCandCnt => { base := 0x2C20, stride := 1, count := 8, width := 13, access := .ro }
  | .defCandAddr => { base := 0x2C28, stride := 1, count := 8, width := 32, access := .ro }
  -- Table 4.10
  | .specEn => { base := 0x3000, stride := 1, count := 8, width := 1, access := .rws }
  | .specPhase => { base := 0x3008, stride := 1, count := 8, width := 1, access := .rws }
  -- Table 5.8
  | .flyCfg => { base := 0x2800, stride := 1, count := 8, width := 16, access := .rws }
  | .flyDts => { base := 0x2808, stride := 1, count := 8, width := 12, access := .rws }
  | .flyTmax => { base := 0x2810, stride := 1, count := 8, width := 16, access := .rws }
  | .flyConfCfg => { base := 0x2818, stride := 1, count := 8, width := 20, access := .rws }
  | .flyRateLim => { base := 0x2820, stride := 1, count := 8, width := 10, access := .rws }
  | .flyIsns => { base := 0x2828, stride := 1, count := 8, width := 32, access := .rws }
  | .sboCfg => { base := 0x2830, stride := 1, count := 8, width := 15, access := .rws }
  | .sboTh => { base := 0x2838, stride := 1, count := 8, width := 32, access := .rws }
  | .flyState => { base := 0x2840, stride := 1, count := 8, width := 21, access := .ro }
  | .driftExc => { base := 0x2848, stride := 1, count := 8, width := 16, access := .ro }
  | .tsFly => { base := 0x2850, stride := 1, count := 8, width := 16, access := .ro }
  | .tsRate => { base := 0x2858, stride := 1, count := 8, width := 16, access := .ro }
  | .flyLastFrame => { base := 0x2860, stride := 1, count := 8, width := 32, access := .ro }
  | .flyActCnt => { base := 0x2868, stride := 1, count := 8, width := 32, access := .ro }
  | .flyEvtCnt => { base := 0x2870, stride := 1, count := 8, width := 32, access := .rc }
  | .sboClampCnt => { base := 0x2878, stride := 1, count := 8, width := 32, access := .rc }
  | .flyMaxConc => { base := 0x2880, stride := 1, count := 1, width := 2, access := .rws }
  | .driftMapAddr => { base := 0x2881, stride := 1, count := 1, width := 32, access := .ro }
  -- Table 6.7
  | .calState => { base := 0x2400, stride := 1, count := 1, width := 3, access := .ro }
  | .calActiveId => { base := 0x2401, stride := 1, count := 4, width := 32, access := .ro }
  | .calActiveVer => { base := 0x2405, stride := 1, count := 1, width := 32, access := .ro }
  | .calSets => { base := 0x2406, stride := 1, count := 1, width := 4, access := .ro }
  | .calTileMask => { base := 0x2407, stride := 1, count := 1, width := 8, access := .ro }
  | .calSetTemp => { base := 0x2408, stride := 1, count := 12, width := 16, access := .ro }
  | .calTrefCh => { base := 0x2414, stride := 1, count := 8, width := 6, access := .ro }
  | .calTiles => { base := 0x241C, stride := 1, count := 1, width := 8, access := .ro }
  | .calVerFloor => { base := 0x241D, stride := 1, count := 1, width := 32, access := .ro }
  | .calImportTmo => { base := 0x241E, stride := 1, count := 1, width := 12, access := .rw }
  | .calTagFailCnt => { base := 0x241F, stride := 1, count := 1, width := 32, access := .rc }
  | .calRereadFailCnt => { base := 0x2420, stride := 1, count := 1, width := 32, access := .rc }
  | .calChunkFailCnt => { base := 0x2421, stride := 1, count := 1, width := 16, access := .rc }
  | .calActFrameLo => { base := 0x2422, stride := 1, count := 1, width := 32, access := .ro }
  | .calActFrameHi => { base := 0x2423, stride := 1, count := 1, width := 16, access := .ro }
  | .calAreaAddr => { base := 0x2424, stride := 1, count := 2, width := 32, access := .ro }
  | .calAreaSize => { base := 0x2426, stride := 1, count := 1, width := 16, access := .ro }
  | .calActiveArea => { base := 0x2427, stride := 1, count := 1, width := 2, access := .ro }
  -- Table 7.12
  | .radQty => { base := 0x3400, stride := 1, count := 8, width := 3, access := .rws }
  | .radEpsMode => { base := 0x3408, stride := 1, count := 1, width := 1, access := .rws }
  | .radTblSel => { base := 0x3409, stride := 1, count := 1, width := 1, access := .rws }
  | .radTblAddr => { base := 0x340A, stride := 1, count := 2, width := 32, access := .ro }
  | .radMapSel => { base := 0x340C, stride := 1, count := 1, width := 1, access := .rws }
  | .radMapAddr => { base := 0x340D, stride := 1, count := 2, width := 32, access := .ro }
  | .radMarkCnt => { base := 0x340F, stride := 1, count := 8, width := 32, access := .rc }
  | .radClampCnt => { base := 0x3417, stride := 1, count := 8, width := 32, access := .rc }
  -- Table 7.13
  | .filtEn => { base := 0x3800, stride := 1, count := 8, width := 2, access := .rws }
  | .filtTfK => { base := 0x3808, stride := 1, count := 8, width := 9, access := .rws }
  | .filtTfTh => { base := 0x3810, stride := 1, count := 8, width := 32, access := .rws }
  | .filtSfTh => { base := 0x3818, stride := 1, count := 8, width := 16, access := .rws }
  | .filtHistAddr => { base := 0x3820, stride := 1, count := 1, width := 32, access := .ro }
  -- Table 7.14
  | .outMvFmt => { base := 0x3C00, stride := 1, count := 1, width := 5, access := .rws }
  | .outCropPos => { base := 0x3C01, stride := 1, count := 16, width := 30, access := .rws }
  | .outCropSize => { base := 0x3C11, stride := 1, count := 16, width := 30, access := .rws }
  | .outCropFmt => { base := 0x3C21, stride := 1, count := 1, width := 16, access := .rws }
  | .outPortCfg => { base := 0x3C22, stride := 1, count := 2, width := 19, access := .rws }
  | .outVpSrcPos => { base := 0x3C24, stride := 1, count := 2, width := 30, access := .rws }
  | .outVpSrcSize => { base := 0x3C26, stride := 1, count := 2, width := 30, access := .rws }
  | .outVpOutSize => { base := 0x3C28, stride := 1, count := 2, width := 28, access := .rws }
  | .outAgcCfg => { base := 0x3C2A, stride := 1, count := 2, width := 19, access := .rws }
  | .outAgcMan => { base := 0x3C2C, stride := 1, count := 2, width := 32, access := .rws }
  | .outAgcPlat => { base := 0x3C2E, stride := 1, count := 2, width := 22, access := .rws }
  | .outPalSel => { base := 0x3C30, stride := 1, count := 2, width := 4, access := .rws }
  | .outPalAddr => { base := 0x3C32, stride := 1, count := 1, width := 32, access := .ro }
  | .outMarkRgb => { base := 0x3C33, stride := 1, count := 1, width := 24, access := .rws }
  | .outIsoRange => { base := 0x3C34, stride := 1, count := 4, width := 32, access := .rws }
  | .outIsoCfg => { base := 0x3C38, stride := 1, count := 4, width := 26, access := .rws }
  | .outPortState => { base := 0x3C3C, stride := 1, count := 2, width := 2, access := .ro }
  | .outSkipCnt => { base := 0x3C3E, stride := 1, count := 2, width := 16, access := .rc }
  | .outNobufCnt => { base := 0x3C40, stride := 1, count := 8, width := 16, access := .rc }
  -- Table 7.15
  | .statHistLo => { base := 0x4000, stride := 1, count := 8, width := 16, access := .rws }
  | .statHistBinw => { base := 0x4008, stride := 1, count := 8, width := 8, access := .rws }
  | .statRectPos => { base := 0x4010, stride := 1, count := 64, width := 30, access := .rws }
  | .statRectSize => { base := 0x4050, stride := 1, count := 64, width := 30, access := .rws }
  | .statEn => { base := 0x4090, stride := 1, count := 1, width := 3, access := .rws }
  | .statHotMin => { base := 0x4091, stride := 1, count := 1, width := 16, access := .rws }
  -- Table 8.4
  | .auxCamCfg => { base := 0x4400, stride := 1, count := 4, width := 25, access := .rws }
  | .auxCamSize => { base := 0x4404, stride := 1, count := 4, width := 27, access := .rws }
  | .auxBlack => { base := 0x4408, stride := 1, count := 8, width := 32, access := .rws }
  | .auxCcm => { base := 0x4410, stride := 1, count := 12, width := 30, access := .rws }
  | .auxHomog => { base := 0x441C, stride := 1, count := 36, width := 32, access := .rws }
  | .auxSubmit => { base := 0x4440, stride := 1, count := 4, width := 32, access := .wo }
  | .auxState => { base := 0x4444, stride := 1, count := 4, width := 32, access := .ro }
  | .auxDropCnt => { base := 0x4448, stride := 1, count := 4, width := 16, access := .rc }
  | .auxFuseCfg => { base := 0x444C, stride := 1, count := 2, width := 32, access := .rws }
  | .auxFuseState => { base := 0x444E, stride := 1, count := 2, width := 32, access := .ro }
  | .auxEdgeRgb => { base := 0x4450, stride := 1, count := 1, width := 24, access := .rws }
  | .auxAreaAddr => { base := 0x4451, stride := 1, count := 1, width := 32, access := .ro }
  | .replayCtl => { base := 0x4452, stride := 1, count := 1, width := 2, access := .wo }
  | .replayCfg => { base := 0x4453, stride := 1, count := 1, width := 11, access := .rw }
  | .replaySrc => { base := 0x4454, stride := 1, count := 1, width := 32, access := .rw }
  | .replayDst => { base := 0x4455, stride := 1, count := 1, width := 32, access := .rw }
  | .replayState => { base := 0x4456, stride := 1, count := 1, width := 14, access := .ro }
  | .replayAreaAddr => { base := 0x4457, stride := 1, count := 1, width := 32, access := .ro }
  | .replayAreaSize => { base := 0x4458, stride := 1, count := 1, width := 16, access := .ro }
  -- Table 9.22
  | .hostCtxBind => { base := 0x4C00, stride := 1, count := 8, width := 7, access := .rws, persistent := true }
  | .hostTagBase => { base := 0x4C08, stride := 1, count := 8, width := 11, access := .rws, persistent := true }
  | .hostTagCount => { base := 0x4C10, stride := 1, count := 8, width := 12, access := .rws, persistent := true }
  | .hostCtxState => { base := 0x4C18, stride := 1, count := 8, width := 3, access := .ro }
  | .hostInflight => { base := 0x4C20, stride := 1, count := 8, width := 12, access := .ro }
  | .hostStaleCnt => { base := 0x4C28, stride := 1, count := 8, width := 16, access := .rc }
  | .hostRejectCnt => { base := 0x4C30, stride := 1, count := 8, width := 16, access := .rc }
  | .hostEvtMask => { base := 0x4C38, stride := 1, count := 8, width := 14, access := .ro }
  | .hostEvtLost => { base := 0x4C40, stride := 1, count := 8, width := 16, access := .rc }
  | .hostIrqMod => { base := 0x4C48, stride := 1, count := 8, width := 10, access := .rw }
  | .hostDpRefuseCnt => { base := 0x4C50, stride := 1, count := 8, width := 16, access := .rc }
  -- Table 10.14
  | .memSize => { base := 0x4800, stride := 1, count := 1, width := 5, access := .ro }
  | .memRegionAddr => { base := 0x4801, stride := 1, count := 9, width := 32, access := .ro }
  | .memRegionSize => { base := 0x480A, stride := 1, count := 9, width := 16, access := .ro }
  | .memChRate => { base := 0x4813, stride := 1, count := 8, width := 16, access := .ro }
  | .memChState => { base := 0x481B, stride := 1, count := 8, width := 8, access := .ro }
  | .memSlowLim => { base := 0x4823, stride := 1, count := 1, width := 7, access := .rw }
  | .memSlowMask => { base := 0x4824, stride := 1, count := 1, width := 8, access := .ro }
  | .memTagFailCnt => { base := 0x4825, stride := 1, count := 1, width := 32, access := .rc }
  | .memLoad => { base := 0x4826, stride := 1, count := 1, width := 7, access := .ro }
  | .memStageSize => { base := 0x4827, stride := 1, count := 1, width := 16, access := .ro }
  -- Table 10.15
  | .secLifecycle => { base := 0x5000, stride := 1, count := 1, width := 1, access := .ro }
  | .secOwnerSlots => { base := 0x5001, stride := 1, count := 1, width := 8, access := .ro }
  | .secFwArb => { base := 0x5002, stride := 1, count := 1, width := 12, access := .ro }
  | .secGrantEpoch => { base := 0x5003, stride := 1, count := 1, width := 10, access := .ro }
  | .secSealN => { base := 0x5004, stride := 1, count := 8, width := 12, access := .rws }
  | .secFwSlotState => { base := 0x500C, stride := 1, count := 1, width := 12, access := .ro }
  | .secFwConfirmBoots => { base := 0x500D, stride := 1, count := 1, width := 3, access := .rws, persistent := true }
  | .secFwConfirmTime => { base := 0x500E, stride := 1, count := 1, width := 16, access := .rws, persistent := true }
  | .secFwCosign => { base := 0x500F, stride := 1, count := 1, width := 1, access := .rws, persistent := true }
  | .secAuthFailCnt => { base := 0x5010, stride := 1, count := 8, width := 16, access := .rc }
  | .secGrantState => { base := 0x5018, stride := 1, count := 8, width := 4, access := .ro }
  | .secSealLogAddr => { base := 0x5020, stride := 1, count := 1, width := 32, access := .ro }
  | .secFwVer => { base := 0x5021, stride := 1, count := 2, width := 32, access := .ro }
  -- Table 11.13
  | .pairBoard => { base := 0x6000, stride := 1, count := 1, width := 1, access := .rws, persistent := true }
  | .pairPeerId => { base := 0x6001, stride := 1, count := 4, width := 32, access := .rws, persistent := true }
  | .pairRolePref => { base := 0x6005, stride := 1, count := 1, width := 2, access := .rws, persistent := true }
  | .pairFwd => { base := 0x6006, stride := 1, count := 8, width := 4, access := .rws }
  | .pairState => { base := 0x600E, stride := 1, count := 1, width := 3, access := .ro }
  | .pairRole => { base := 0x600F, stride := 1, count := 1, width := 2, access := .ro }
  | .pairOwn => { base := 0x6010, stride := 1, count := 1, width := 8, access := .ro }
  | .pairLinkState => { base := 0x6011, stride := 1, count := 1, width := 2, access := .ro }
  | .pairRetrainLim => { base := 0x6012, stride := 1, count := 1, width := 12, access := .rw }
  | .pairReplayCnt => { base := 0x6013, stride := 1, count := 1, width := 16, access := .rc }
  | .pairCrcCnt => { base := 0x6014, stride := 1, count := 1, width := 16, access := .rc }
  | .pairRetrainCnt => { base := 0x6015, stride := 1, count := 1, width := 16, access := .rc }
  | .pairAuthCnt => { base := 0x6016, stride := 1, count := 1, width := 16, access := .rc }
  | .pairAliveErrCnt => { base := 0x6017, stride := 1, count := 1, width := 16, access := .rc }
  | .pairFailoverCnt => { base := 0x6018, stride := 1, count := 1, width := 16, access := .rc }
  | .pairJoinTmo => { base := 0x6019, stride := 1, count := 1, width := 8, access := .rw }
  -- Table 12.8
  | .clkStraps => { base := 0x0400, stride := 1, count := 1, width := 4, access := .ro }
  | .clkRefinFreq => { base := 0x0401, stride := 1, count := 1, width := 16, access := .rws, persistent := true }
  | .clkRcTrim => { base := 0x0402, stride := 1, count := 1, width := 10, access := .ro }
  | .clkRcTrimSrc => { base := 0x0403, stride := 1, count := 1, width := 2, access := .rws }
  | .clkRcErr => { base := 0x0404, stride := 1, count := 1, width := 16, access := .ro }
  | .clkState => { base := 0x0405, stride := 1, count := 1, width := 9, access := .ro }
  | .clkLoss => { base := 0x0406, stride := 1, count := 1, width := 3, access := .w1c }
  | .clkLossCnt => { base := 0x0407, stride := 1, count := 1, width := 16, access := .rc }
  | .clkASrc => { base := 0x0408, stride := 1, count := 1, width := 2, access := .rws }
  -- Table 12.9
  | .thmWarn => { base := 0x0800, stride := 1, count := 1, width := 12, access := .rws, persistent := true }
  | .thmThrottle => { base := 0x0801, stride := 1, count := 1, width := 12, access := .rws, persistent := true }
  | .thmShut => { base := 0x0802, stride := 1, count := 1, width := 12, access := .rws, persistent := true }
  | .thmGov => { base := 0x0803, stride := 1, count := 1, width := 16, access := .ro }
  | .thmStage => { base := 0x0804, stride := 1, count := 1, width := 4, access := .ro }
  | .thmBroken => { base := 0x0805, stride := 1, count := 1, width := 14, access := .ro }
  | .thmDevCnt => { base := 0x0806, stride := 1, count := 14, width := 2, access := .ro }
  | .thmResume => { base := 0x0814, stride := 1, count := 1, width := 1, access := .wo }
  | .thmShutCnt => { base := 0x0815, stride := 1, count := 1, width := 16, access := .rc }
  | .thmThrottleCnt => { base := 0x0816, stride := 1, count := 1, width := 16, access := .rc }
  | .thmPfw => { base := 0x0817, stride := 1, count := 1, width := 2, access := .ro }
  | .thmPfwCnt => { base := 0x0818, stride := 1, count := 1, width := 16, access := .rc }
  | .thmResetCause => { base := 0x0819, stride := 1, count := 1, width := 2, access := .ro }
  -- Table 13.9
  | .nvAutocommit => { base := 0x5400, stride := 1, count := 1, width := 16, access := .rw }
  | .nvState => { base := 0x5401, stride := 1, count := 1, width := 2, access := .ro }
  | .nvBufPages => { base := 0x5402, stride := 1, count := 1, width := 7, access := .ro }
  | .nvTxnLo => { base := 0x5403, stride := 1, count := 1, width := 32, access := .ro }
  | .nvTxnHi => { base := 0x5404, stride := 1, count := 1, width := 16, access := .ro }
  | .nvSpares => { base := 0x5405, stride := 1, count := 1, width := 8, access := .ro }
  | .nvWear => { base := 0x5406, stride := 1, count := 1, width := 16, access := .ro }
  | .nvRecoverCnt => { base := 0x5407, stride := 1, count := 1, width := 16, access := .rc }
  | .nvCommitFailCnt => { base := 0x5408, stride := 1, count := 1, width := 16, access := .rc }
  | .nvLock => { base := 0x5409, stride := 1, count := 1, width := 8, access := .ro }
  | .nvPwSet => { base := 0x540A, stride := 1, count := 1, width := 16, access := .ro }
  | .nvPwFail => { base := 0x540B, stride := 1, count := 8, width := 4, access := .ro }
  | .ledgerHostTime => { base := 0x5413, stride := 1, count := 1, width := 32, access := .wo }
  | .ledgerTime => { base := 0x5414, stride := 1, count := 1, width := 32, access := .ro }
  | .ledgerMinutes => { base := 0x5415, stride := 1, count := 1, width := 32, access := .ro }
  | .ledgerOpen => { base := 0x5416, stride := 1, count := 1, width := 16, access := .ro }
  -- Table 13.10
  | .pegCfg => { base := 0x5800, stride := 1, count := 2, width := 16, access := .rws, persistent := true }
  | .pegRdyTmo => { base := 0x5802, stride := 1, count := 2, width := 16, access := .rw }
  | .pegXfer => { base := 0x5804, stride := 1, count := 2, width := 10, access := .wo }
  | .pegXferStatus => { base := 0x5806, stride := 1, count := 2, width := 8, access := .ro }
  | .pegStatus => { base := 0x5808, stride := 1, count := 2, width := 2, access := .rc }
  | .pegRdyToCnt => { base := 0x580A, stride := 1, count := 2, width := 16, access := .rc }
  | .pegUnderrunCnt => { base := 0x580C, stride := 1, count := 2, width := 16, access := .rc }
  | .pegRxOvfCnt => { base := 0x580E, stride := 1, count := 2, width := 16, access := .rc }
  | .pegTx => { base := 0x5810, stride := 1, count := 16, width := 32, access := .rw }
  | .pegRx => { base := 0x5820, stride := 1, count := 16, width := 32, access := .ro }
  -- Table 14.4
  | .perfCtl => { base := 0x5C00, stride := 1, count := 16, width := 6, access := .rw }
  | .perfEvsel => { base := 0x5C10, stride := 1, count := 128, width := 8, access := .rw }
  | .perfSnapCfg => { base := 0x5C90, stride := 1, count := 1, width := 9, access := .rw }
  | .perfSnapAddr => { base := 0x5C91, stride := 1, count := 1, width := 32, access := .ro }
  | .perfSnapSeq => { base := 0x5C92, stride := 1, count := 1, width := 32, access := .ro }
  | .perfSnapIdx => { base := 0x5C93, stride := 1, count := 1, width := 6, access := .ro }
  | .sampleCfg => { base := 0x5C94, stride := 1, count := 1, width := 8, access := .rw }
  | .sampleSeed => { base := 0x5C95, stride := 1, count := 1, width := 31, access := .rw }
  | .sampleAddr => { base := 0x5C96, stride := 1, count := 1, width := 32, access := .ro }
  | .sampleLevel => { base := 0x5C97, stride := 1, count := 1, width := 13, access := .ro }
  | .sampleLostCnt => { base := 0x5C98, stride := 1, count := 1, width := 32, access := .rc }
  | .perfClear => { base := 0x5C99, stride := 1, count := 1, width := 16, access := .wo }
  -- Table 14.5
  | .dbgState => { base := 0x6400, stride := 1, count := 1, width := 18, access := .ro }
  | .dbgHalt => { base := 0x6401, stride := 1, count := 1, width := 4, access := .ro }
  | .dbgLocks => { base := 0x6402, stride := 1, count := 1, width := 32, access := .ro }
  | .dbgRevokeCnt => { base := 0x6403, stride := 1, count := 1, width := 16, access := .rc }
  | .dbgUnlockFailCnt => { base := 0x6404, stride := 1, count := 1, width := 16, access := .rc }

/-- The parameters of a block, by the block code of Table 9.17. -/
def blockParams : Nat → List Param
  | 0x00 =>
    [.tickSrc, .tickPeriod, .fsyncPol, .fsyncMinPeriod, .fsyncNomPeriod, .fsyncLossPolicy, .fsyncEarlyCnt,
     .tickState, .tickMeasPeriod, .tickDiv, .frameNumLo, .frameNumHi, .pipeLatRows, .budgetMargin,
     .tickMissingCnt, .dropCnt, .mosaicW, .mosaicH]
  | 0x01 =>
    [.clkStraps, .clkRefinFreq, .clkRcTrim, .clkRcTrimSrc, .clkRcErr, .clkState, .clkLoss, .clkLossCnt, .clkASrc]
  | 0x02 =>
    [.thmWarn, .thmThrottle, .thmShut, .thmGov, .thmStage, .thmBroken, .thmDevCnt, .thmResume, .thmShutCnt,
     .thmThrottleCnt, .thmPfw, .thmPfwCnt, .thmResetCause]
  | 0x03 =>
    [.glnRetrainLim, .glnReplayCntFc, .glnReplayCntCf, .glnCrcCntFc, .glnCrcCntCf, .glnRetrainCnt, .glnWidth,
     .glnState, .glnSbErrCnt, .glnLostRowsCnt]
  | 0x04 =>
    [.tileEn, .tileX, .tileY, .tileFlip, .tileKind, .actCols, .actRows, .refRows, .tapMode, .hdrEn, .intLStart,
     .intLLen, .intSLen, .intRatio, .winEn, .winStart, .winRows, .tileWake, .vdetCode, .vskimCode, .vguardCode,
     .biasSlew, .biasStatus, .biasFaultCnt, .digRefCols, .digFmt, .digLag, .digClkMeas, .digCrcCnt,
     .digFramingCnt, .lateRowCnt, .tileState]
  | 0x05 =>
    [.afeGain, .afeOfs, .afeClipCnt]
  | 0x06 =>
    [.adcTrimOfs, .adcTrimGain, .adcRefen, .adcRefStatus, .ilvEn, .adcRnrCnt, .adcSphase, .ilvSkew]
  | 0x07 =>
    [.hkRegEnt, .hkInjEnt, .hkLast, .hkRegLen, .hkRound, .hkInjLen, .hkInjTrig, .hkInjFire, .hkInjDrop, .hkQEn,
     .hkQueue, .hkQLevel, .hkQOvfCnt, .hkRoundLateCnt, .hkRoundSkipCnt, .hkState]
  | 0x08 =>
    [.pipeStageEn, .mergeKnee, .mergeRatioOvr, .mergeRatio, .interpState, .trefUsed, .pipeSatCnt]
  | 0x09 =>
    [.calState, .calActiveId, .calActiveVer, .calSets, .calTileMask, .calSetTemp, .calTrefCh, .calTiles,
     .calVerFloor, .calImportTmo, .calTagFailCnt, .calRereadFailCnt, .calChunkFailCnt, .calActFrameLo,
     .calActFrameHi, .calAreaAddr, .calAreaSize, .calActiveArea]
  | 0x0A =>
    [.flyCfg, .flyDts, .flyTmax, .flyConfCfg, .flyRateLim, .flyIsns, .sboCfg, .sboTh, .flyState, .driftExc,
     .tsFly, .tsRate, .flyLastFrame, .flyActCnt, .flyEvtCnt, .sboClampCnt, .flyMaxConc, .driftMapAddr]
  | 0x0B =>
    [.defDynSigmaLim, .defDynOfsLim, .defStaticCnt, .defMarkCnt, .defCandCnt, .defCandAddr]
  | 0x0C =>
    [.specEn, .specPhase]
  | 0x0D =>
    [.radQty, .radEpsMode, .radTblSel, .radTblAddr, .radMapSel, .radMapAddr, .radMarkCnt, .radClampCnt]
  | 0x0E =>
    [.filtEn, .filtTfK, .filtTfTh, .filtSfTh, .filtHistAddr]
  | 0x0F =>
    [.outMvFmt, .outCropPos, .outCropSize, .outCropFmt, .outPortCfg, .outVpSrcPos, .outVpSrcSize, .outVpOutSize,
     .outAgcCfg, .outAgcMan, .outAgcPlat, .outPalSel, .outPalAddr, .outMarkRgb, .outIsoRange, .outIsoCfg,
     .outPortState, .outSkipCnt, .outNobufCnt]
  | 0x10 =>
    [.statHistLo, .statHistBinw, .statRectPos, .statRectSize, .statEn, .statHotMin]
  | 0x11 =>
    [.auxCamCfg, .auxCamSize, .auxBlack, .auxCcm, .auxHomog, .auxSubmit, .auxState, .auxDropCnt, .auxFuseCfg,
     .auxFuseState, .auxEdgeRgb, .auxAreaAddr, .replayCtl, .replayCfg, .replaySrc, .replayDst, .replayState,
     .replayAreaAddr, .replayAreaSize]
  | 0x12 =>
    [.memSize, .memRegionAddr, .memRegionSize, .memChRate, .memChState, .memSlowLim, .memSlowMask, .memTagFailCnt,
     .memLoad, .memStageSize]
  | 0x13 =>
    [.hostCtxBind, .hostTagBase, .hostTagCount, .hostCtxState, .hostInflight, .hostStaleCnt, .hostRejectCnt,
     .hostEvtMask, .hostEvtLost, .hostIrqMod, .hostDpRefuseCnt]
  | 0x14 =>
    [.secLifecycle, .secOwnerSlots, .secFwArb, .secGrantEpoch, .secSealN, .secFwSlotState, .secFwConfirmBoots,
     .secFwConfirmTime, .secFwCosign, .secAuthFailCnt, .secGrantState, .secSealLogAddr, .secFwVer]
  | 0x15 =>
    [.nvAutocommit, .nvState, .nvBufPages, .nvTxnLo, .nvTxnHi, .nvSpares, .nvWear, .nvRecoverCnt,
     .nvCommitFailCnt, .nvLock, .nvPwSet, .nvPwFail, .ledgerHostTime, .ledgerTime, .ledgerMinutes, .ledgerOpen]
  | 0x16 =>
    [.pegCfg, .pegRdyTmo, .pegXfer, .pegXferStatus, .pegStatus, .pegRdyToCnt, .pegUnderrunCnt, .pegRxOvfCnt,
     .pegTx, .pegRx]
  | 0x17 =>
    [.perfCtl, .perfEvsel, .perfSnapCfg, .perfSnapAddr, .perfSnapSeq, .perfSnapIdx, .sampleCfg, .sampleSeed,
     .sampleAddr, .sampleLevel, .sampleLostCnt, .perfClear]
  | 0x18 =>
    [.pairBoard, .pairPeerId, .pairRolePref, .pairFwd, .pairState, .pairRole, .pairOwn, .pairLinkState,
     .pairRetrainLim, .pairReplayCnt, .pairCrcCnt, .pairRetrainCnt, .pairAuthCnt, .pairAliveErrCnt,
     .pairFailoverCnt, .pairJoinTmo]
  | 0x19 =>
    [.dbgState, .dbgHalt, .dbgLocks, .dbgRevokeCnt, .dbgUnlockFailCnt]
  | _ => []

/-- The ID of member i of a parameter. -/
def Param.id (p : Param) (i : Nat) : Nat := p.row.base + p.row.stride * i

/-- The member of a parameter that an ID names. -/
def Param.memberOf (id : Nat) (p : Param) : Option (Param × Nat) :=
  let r := p.row
  if r.base ≤ id && (id - r.base) % r.stride == 0 && (id - r.base) / r.stride < r.count then
    some (p, (id - r.base) / r.stride)
  else none

/-- The parameter and member that an ID names; none for a reserved or unassigned ID (R286). -/
def paramOf (id : Nat) : Option (Param × Nat) := (blockParams (id / 1024)).findSome? (Param.memberOf id)

/-- The Reset column. A parameter without a number there (set at boot, from OTP, from NV as a page value, write only)
answers 0 here and is given its value where it is read. Values marked 'none held' are those of an empty NV store; the
THM levels are those of the I grade (Table 12.3), and the boot writes those of an E grade device. -/
def Param.reset (p : Param) (i : Nat) : Nat :=
  match p with
  | .tickPeriod => 1666667
  | .fsyncMinPeriod => 1666667
  | .fsyncNomPeriod => 1666667
  | .glnRetrainLim => 32
  | .actCols => 2560
  | .actRows => 1536
  | .refRows => 8
  | .intLStart => 50
  | .intLLen => 800
  | .intSLen => 64
  | .winRows => 192
  | .tileWake => 1000
  | .biasSlew => 10
  | .digFmt => 0x0E
  | .digLag => 2
  | .adcSphase => 30
  | .hkRegEnt => 0x2900 + i
  | .hkInjEnt => [0x0AA1, 0x2920, 0x0A9E, 0].getD i 0
  | .hkRegLen => 32
  | .hkRound => 100
  | .hkInjLen => 3
  | .hkInjTrig => 0xF
  | .hkQueue => 0xFFFFFFFF
  | .pipeStageEn => 0x05FF
  | .mergeKnee => 14000
  | .defDynSigmaLim => 64
  | .defDynOfsLim => 4096
  | .flyCfg => 0x0878
  | .flyDts => 128
  | .flyTmax => 300
  | .flyConfCfg => 0x00004048
  | .flyRateLim => 20
  | .flyIsns => 0x01F403E8
  | .sboCfg => 0x0A00
  | .sboTh => 0x00400008
  | .flyMaxConc => 1
  | .calImportTmo => 60
  | .filtEn => 0b11
  | .filtTfK => 64
  | .filtTfTh => 0x00C80014
  | .filtSfTh => 50
  | .outMvFmt => 0x01
  | .outPortCfg => 0x0001F420
  | .outVpOutSize => 0x04380780
  | .outAgcCfg => 0x00001082
  | .outAgcMan => 0x7E3B66CB
  | .outAgcPlat => 4096
  | .outMarkRgb => 0x00FF00FF
  | .statHistBinw => 16
  | .statEn => 0b111
  | .auxCamCfg => 0x0000000C
  | .auxCamSize => 0x04000500
  | .auxBlack => 0x10001000
  | .auxCcm => 0x80 * 2 ^ (10 * (i % 3))
  | .auxHomog => if i % 9 == 0 || i % 9 == 4 || i % 9 == 8 then 0x3F800000 else 0
  | .auxFuseCfg => 0x00100800
  | .auxEdgeRgb => 0x00FFFFFF
  | .replayCfg => 0x004
  | .hostCtxBind => if i == 0 then 0x11 else 0
  | .hostTagBase => 256 * i
  | .hostTagCount => 256
  | .memSlowLim => 90
  | .secSealN => 60
  | .secFwConfirmBoots => 3
  | .secFwConfirmTime => 600
  | .pairRolePref => 2
  | .pairRetrainLim => 32
  | .pairJoinTmo => 10
  | .clkRefinFreq => 25000
  | .thmWarn => 2624
  | .thmThrottle => 2784
  | .thmShut => 2944
  | .nvAutocommit => 1000
  | .pegCfg => 0x0008
  | .pegRdyTmo => 100
  | .perfSnapCfg => 0x003
  | .sampleCfg => 0x40
  | .sampleSeed => 0x00000001
  | _ => let _ := i; 0

/-- A value inside a closed range. -/
def within (lo hi v : Nat) : Bool := lo ≤ v && v ≤ hi

/-- The grade ceiling of the three thermal levels (Table 12.3, R363). -/
def thermalCeiling (gradeE : Bool) (level : Nat) : Nat := [2624, 2784, 2944].getD level 0 + if gradeE then 160 else 0

/-- The event codes of a counter unit (Table 14.1, R399). -/
def eventCodeOk (u code : Nat) : Bool :=
  code == 0 || (match u with
    | 0 => within 0x10 0x13 code
    | 1 => within 0x10 0x14 code
    | 2 => within 0x10 0x13 code
    | 3 => within 0x10 0x14 code
    | 4 => within 0x10 0x13 code
    | 11 => within 0x10 0x21 code
    | 12 => within 0x10 0x14 code
    | 13 => within 0x10 0x18 code
    | _ => within 0x10 0x13 code)

/-- In range (R287): every field of the value lies within the range or the codes that its table states, against the
widest case where the range is in terms of another parameter, and no bit is set that the table does not assign. -/
def Param.inRange (gradeE : Bool) (p : Param) (i v : Nat) : Bool :=
  let f (hi lo : Nat) := bitsOf v hi lo
  decide (v < 2 ^ p.row.width) && (match p with
  | .tileX => v ≤ 17920 && v % 8 == 0
  | .tileY => v ≤ 10752
  | .tickPeriod | .fsyncMinPeriod => within 208333 100000000 v
  | .fsyncNomPeriod => 208333 ≤ v
  | .glnRetrainLim | .pairRetrainLim => 1 ≤ v
  | .actCols => within 64 2560 v && v % 8 == 0
  | .actRows => within 16 1536 v
  | .refRows | .digLag => v ≤ 8
  | .intLStart => within 29 1023 v
  | .intSLen => within 10 1023 v
  | .winRows => within 16 192 v
  | .tileWake => within 100 50000 v
  | .biasSlew => within 1 100 v
  | .digRefCols => v == 0 || v == 32
  | .digFmt => within 12 16 (f 4 0)
  | .hkRegEnt | .hkInjEnt => f 5 0 ≤ 0x21 && f 8 6 ≤ 7
  | .hkRegLen => within 14 32 v
  | .hkRound => within 10 800 v
  | .hkInjLen => v ≤ 4
  | .hkInjFire => v ≤ 7 || v == 15
  | .mergeKnee => within 256 (2 ^ 16 - 257) v
  | .mergeRatioOvr => v == 0 || 0x1000 ≤ v
  | .defDynSigmaLim | .defDynOfsLim => 1 ≤ v
  | .flyCfg => within 5 40 (f 7 2) && within 4 32 (f 13 8) && f 15 14 ≤ 2
  | .flyDts => 16 ≤ v
  | .flyTmax => v == 0 || 10 ≤ v
  | .flyConfCfg => 16 ≤ f 19 8
  | .flyRateLim => within 1 1000 v
  | .sboCfg => 1 ≤ f 14 11
  | .flyMaxConc => within 1 2 v
  | .calImportTmo => within 1 3600 v
  | .radQty => v ≤ 4
  | .filtTfK => within 1 256 v
  | .outMvFmt => f 1 0 ≤ 2
  | .outCropPos | .outCropSize | .statRectPos | .statRectSize | .outVpSrcPos | .outVpSrcSize => f 15 15 == 0
  | .outPortCfg => within 8 250 (f 18 9) && (if i == 0 then f 1 0 ≤ 2 && f 3 2 == 0 else f 1 0 ≤ 1)
  | .outVpOutSize => f 15 12 == 0
  | .outAgcCfg => f 1 0 ≤ 2 && within 1 256 (f 10 2)
  | .statHistBinw => within 1 255 v
  | .auxCamCfg => within 8 16 (f 4 0)
  | .auxCamSize => within 64 2048 (f 11 0) && f 0 0 == 0 && within 64 1536 (f 26 16) && f 16 16 == 0 && f 15 12 == 0
  | .auxSubmit => f 15 1 == 0
  | .auxFuseCfg => f 12 4 ≤ 256
  | .replayCtl => within 1 3 v
  | .replayCfg => 1 ≤ f 9 2
  | .hostCtxBind => f 3 0 ≤ 11 && f 6 4 ≤ 5
  | .hostTagCount => v ≤ 2048
  | .hostIrqMod => v ≤ 1000
  | .memSlowLim => within 50 99 v
  | .secSealN => within 1 3600 v
  | .secFwConfirmBoots => within 1 7 v
  | .secFwConfirmTime => within 60 65535 v
  | .pairRolePref => v ≤ 2
  | .pairJoinTmo => within 1 255 v
  | .clkRefinFreq => within 10000 50000 v
  | .clkRcTrimSrc | .clkASrc => v ≤ 2
  | .thmWarn => within 1984 (thermalCeiling gradeE 0) v
  | .thmThrottle => within 1984 (thermalCeiling gradeE 1) v
  | .thmShut => within 1984 (thermalCeiling gradeE 2) v
  | .thmResume => v == 1
  | .nvAutocommit => within 100 60000 v
  | .pegCfg => 1 ≤ f 8 3
  | .pegXfer => within 1 32 (f 9 4)
  | .perfEvsel => eventCodeOk (i / 8) v
  | .perfSnapCfg => 1 ≤ f 8 1
  | .sampleCfg => f 1 0 ≤ 2 && f 6 2 ≤ 16
  | .sampleSeed => v ≠ 0
  | _ => true)


/-- The parameter is a register of the F-die: its block, or the unit of the counters, is there (Table 1.1, Table 14.1), or it belongs to
the tick generator (R19), the RC oscillator or PLL_A (Table 12.2; log 126). -/
def onFDie (p : Param) (i : Nat) : Bool :=
  match p with
  | .perfCtl => i ≤ 4
  | .perfEvsel => i / 8 ≤ 4
  | .tickSrc | .tickPeriod | .tickState | .tickMeasPeriod | .fsyncNomPeriod | .fsyncLossPolicy | .fsyncMinPeriod | .fsyncPol
  | .fsyncEarlyCnt | .clkRefinFreq | .clkRcTrim | .clkRcTrimSrc | .clkRcErr | .clkASrc => true
  | _ => [0x04, 0x05, 0x06, 0x07, 0x15, 0x16].contains (p.id i / 1024)

end Sys2Proof.Machine
end

