-- ==== Sys2Proof/Machine/Ops.lean ====
section
/-!
DEFINITION. The named operations over the device's state that the meanings share: the sorted lists, the time base, the
register file, external memory, the counter units, event records, replies and interrupt vectors.
-/
namespace Sys2Proof.Machine

/-! Lists sorted by a natural key, with no key twice. -/

/-- The value at a key. -/
def keyGet {β : Type} : List (Nat × β) → Nat → Option β
  | [], _ => none
  | (k, v) :: r, a => if k = a then some v else if a < k then none else keyGet r a

/-- The list with a value at a key. -/
def keyPut {β : Type} : List (Nat × β) → Nat → β → List (Nat × β)
  | [], a, b => [(a, b)]
  | (k, v) :: r, a, b => if a < k then (a, b) :: (k, v) :: r else if k = a then (a, b) :: r else (k, v) :: keyPut r a b

/-- The list without a key. -/
def keyDel {β : Type} : List (Nat × β) → Nat → List (Nat × β)
  | [], _ => []
  | (k, v) :: r, a => if k = a then r else if a < k then (k, v) :: r else (k, v) :: keyDel r a

/-- The keys rise strictly, from above a lower bound. -/
def keysRise {β : Type} : Option Nat → List (Nat × β) → Bool
  | _, [] => true
  | none, (k, _) :: r => keysRise (some k) r
  | some b, (k, _) :: r => b < k && keysRise (some k) r

/-! The time base and the counter units (R352, R398 to R401). -/

/-- The divider ramp of a switch as (length in ns, divisor in eighths): 8 steps of 2 µs up by 0.375, the relock at a divisor of 4,
and 8 steps of 2 µs down (R358). A domain that coasted is at a divisor of 4 already and starts with the relock (log 60). -/
def rampSteps (relock : Nat) (coasted : Bool) : List (Nat × Nat) :=
  (if coasted then [] else (List.range 8).map fun k => (2000, 11 + 3 * k)) ++ [(relock, 32)]
    ++ (List.range 8).map fun k => (2000, 29 - 3 * k)

/-- How long a switch takes. -/
def rampLength (relock : Nat) (coasted : Bool) : Nat := ((rampSteps relock coasted).map (·.1)).sum

/-- What a clock of a rate has counted after ns of a ramp; beyond its end the clock runs at full rate. -/
def rampCount (rate : Nat) : List (Nat × Nat) → Nat → Nat
  | [], ns => rate * ns
  | (len, div) :: r, ns => if ns ≤ len then rate * ns * 8 / div else rate * len * 8 / div + rampCount rate r (ns - len)

/-- What a clock of a rate per ns counts from one instant to a later one: nothing while its PLL is off, a quarter while it coasts
(R355), and by the ramp during a switch (R358). -/
def PllState.counts (p : PllState) (rate : Nat) (from_ to_ : Time) : Nat :=
  match p with
  | .off => 0
  | .locked => rate * (to_ - from_)
  | .coasting _ => rate * to_ / 4 - rate * from_ / 4
  | .switching since relock coast =>
    let steps := rampSteps relock coast.isSome
    rampCount rate steps (to_ - since) - rampCount rate steps (from_ - since)

def PllState.isSwitching : PllState → Bool
  | .switching _ _ _ => true
  | _ => false

def PllState.isCoasting : PllState → Bool
  | .coasting _ => true
  | _ => false

/-- Counter unit u's cycles per nanosecond at full speed, in units of 1/40,000 (Table 14.1), and its PLL. -/
def unitClock (c : Clocks) (u : Nat) : Nat × PllState :=
  if u ≤ 4 then (10000, c.pllA) else if u = 11 then (42664, c.pllM) else if u ≤ 10 || u = 15 then (32000, c.pllC)
  else (40000, c.pllC)

/-- The counter units at a later time: every cycle counter has counted its clock (R398). -/
def Perf.upToTime (c : Clocks) (p : Perf) (t : Time) : Perf :=
  { p with
    units := p.units.mapIdx fun u cu =>
      let r := unitClock c u
      { cu with cycles := cu.cycles + r.2.counts r.1 p.upTo t }
    upTo := t }

def TileSt.allSettled (t : TileSt) : Bool := t.vdet.settled && t.vskim.settled && t.vguard.settled

/-- A BIAS_SETTLED bit is clear (Table 14.1). -/
def State.unsettledNow (s : State) : Bool := s.tiles.any fun k => !k.allSettled

/-- The cycles of counter unit 0 between two instants while a BIAS_SETTLED bit is clear, in units of 1/40,000 (Table 14.1). -/
def State.biasCycles (s : State) (from_ to_ : Time) : Nat :=
  if s.unsettledNow then s.clk.pllA.counts (unitClock s.clk 0).1 from_ to_ else 0

/-- The time base reaches t. It never runs back (R352); an event that carries an earlier instant acts at once. -/
def State.advance (s : State) (t : Time) : State :=
  let n := max s.time t
  { s with
    time := n
    perf := { s.perf.upToTime s.clk n with biasClear := s.perf.biasClear + s.biasCycles s.perf.upTo n } }

/-- The cycles that a unit's cycle counter shows, 64 bits (R398). -/
def CounterUnit.cycleCount (c : CounterUnit) : Nat := c.cycles / 40000 % 2 ^ 64

/-- The counter units as they stood at an instant that has passed, as far as their cycles go (R402). -/
def Perf.unitsAt (c : Clocks) (p : Perf) (t : Time) : List CounterUnit :=
  p.units.mapIdx fun u cu =>
    let r := unitClock c u
    { cu with cycles := cu.cycles - r.2.counts r.1 t p.upTo }

/-! The register file (R286). -/

/-- The active value of member i of a parameter. -/
def State.par (s : State) (p : Param) (i : Nat := 0) : Nat :=
  match keyGet s.regs (p.id i) with
  | some w => w.toNat
  | none => p.reset i

/-- A register file with member i of a parameter at v; a value equal to the reset value is not listed. A member that the
parameter does not have is not written. -/
def putReg (regs : List (Nat × Word)) (p : Param) (i v : Nat) : List (Nat × Word) :=
  if p.row.count ≤ i then regs
  else if BitVec.ofNat 32 v = BitVec.ofNat 32 (p.reset i) then keyDel regs (p.id i)
  else keyPut regs (p.id i) (BitVec.ofNat 32 v)

/-- Member i of a parameter takes the active value v. -/
def State.setPar (s : State) (p : Param) (i v : Nat) : State := { s with regs := putReg s.regs p i v }

/-- A counter of the register file counts n, and stops at the top of its width (R120). -/
def State.bump (s : State) (p : Param) (i : Nat := 0) (n : Nat := 1) : State :=
  s.setPar p i (satAdd (2 ^ p.row.width - 1) (s.par p i) n)

/-- One 16-bit half of a counter pair counts n (FLY_EVT_CNT, Table 5.8). -/
def State.bumpHalf (s : State) (p : Param) (i half n : Nat) : State :=
  let v := s.par p i
  let lo := v % 65536
  let hi := v / 65536
  if half = 0 then s.setPar p i (satAdd 0xFFFF lo n + 65536 * hi) else s.setPar p i (lo + 65536 * satAdd 0xFFFF hi n)

/-- A bit of an active value. -/
def State.parBit (s : State) (p : Param) (i b : Nat) : Bool := bitOf (s.par p i) b

/-- A bit field of an active value. -/
def State.parField (s : State) (p : Param) (i hi lo : Nat) : Nat := bitsOf (s.par p i) hi lo

/-! Counters (R399, R400). -/

/-- Counter j of a unit adds n occurrences. chain: whether the pair of j is chained. -/
def CounterUnit.count (c : CounterUnit) (chain : Bool) (j n : Nat) : CounterUnit :=
  let lo := j / 2 * 2
  if chain then
    if j % 2 = 1 then c
    else
      let total := c.cnt.getD lo 0 + 2 ^ 48 * c.cnt.getD (lo + 1) 0 + n
      if total < 2 ^ 96 then { c with cnt := (c.cnt.set lo (total % 2 ^ 48)).set (lo + 1) (total / 2 ^ 48) }
      else
        { c with
            cnt := (c.cnt.set lo (2 ^ 48 - 1)).set (lo + 1) (2 ^ 48 - 1)
            ovf := c.ovf ||| (BitVec.ofNat 8 (3 * 2 ^ lo)) }
  else
    let total := c.cnt.getD j 0 + n
    if total < 2 ^ 48 then { c with cnt := c.cnt.set j total }
    else { c with cnt := c.cnt.set j (2 ^ 48 - 1), ovf := c.ovf ||| BitVec.ofNat 8 (2 ^ j) }

/-- What a unit's counters held at an instant, before a clear of that instant (R401, R402). -/
def CounterUnit.latched (c : CounterUnit) (at_ : Time) : CounterUnit :=
  match (c.before.filter fun p => at_ < p.time || (p.clear && p.time == at_)).getLast? with
  | some p => { c with cnt := p.cnt, ovf := p.ovf }
  | none => c

/-- A change of a unit's counters at an instant that has passed. What happened to the counters after it happened to the changed
ones; what they held before it is kept for the latches of the next 100 µs (R402). -/
def CounterUnit.changeAt (c : CounterUnit) (at_ : Time) (f : CounterUnit → CounterUnit) : CounterUnit :=
  let old := c.latched (at_ + 1)
  let later := (c.before.filter fun p => at_ < p.time).map fun p =>
    let k := f { c with cnt := p.cnt, ovf := p.ovf }
    { p with cnt := k.cnt, ovf := k.ovf }
  let earlier := c.before.filter fun p => p.time ≤ at_ && at_ < p.time + 100000
  let here : List Past :=
    if earlier.any fun p => p.time == at_ then [] else [{ time := at_, clear := false, cnt := old.cnt, ovf := old.ovf }]
  { f c with before := later ++ here ++ earlier }

/-- n occurrences of an event in a counter unit at an instant (R399): every counter that selects it counts, while the unit is
enabled and not frozen. -/
def State.perfEventAt (s : State) (at_ : Time) (u code n : Nat) : State :=
  let ctl := s.par .perfCtl u
  let on (j : Nat) : Bool := s.par .perfEvsel (8 * u + j) == code
  if bitOf ctl 0 && !bitOf ctl 1 && n ≠ 0 && (List.range 8).any on then
    let f (cu : CounterUnit) := (List.range 8).foldl (fun cu j => if on j then cu.count (bitOf ctl (2 + j / 2)) j n else cu) cu
    { s with perf := { s.perf with units := s.perf.units.modify u fun cu => cu.changeAt at_ f } }
  else s

/-- n occurrences of an event now. -/
def State.perfEvent (s : State) (u code : Nat) (n : Nat := 1) : State := s.perfEventAt s.time u code n

/-! External memory (R297, log 3). -/

/-- The byte at a device address: 0 where nothing is listed. -/
def cellByte (cells : List Host.Cell) (a : Nat) : Byte := (keyGet cells a).getD 0

/-- A byte store that keeps the canonical form: a zero byte is not listed. -/
def putCell (cells : List Host.Cell) (a : Nat) (b : Byte) : List Host.Cell :=
  if b = 0 then keyDel cells a else keyPut cells a b

/-- A store of a byte string from an address on. -/
def putCells (cells : List Host.Cell) (a : Nat) : Bytes → List Host.Cell
  | [] => cells
  | b :: bs => putCells (putCell cells a b) (a + 1) bs

/-- The canonical form: addresses rise strictly, and no listed byte is zero. -/
def cellsWf (cells : List Host.Cell) : Bool := keysRise none cells && cells.all fun c => c.2 != 0

/-- n bytes from an address. -/
def getCells (cells : List Host.Cell) (a n : Nat) : Bytes := (List.range n).map fun i => cellByte cells (a + i)

def State.readMem (s : State) (a n : Nat) : Bytes := getCells s.mem.cells a n

def State.writeMem (s : State) (a : Nat) (b : Bytes) : State :=
  { s with mem := { s.mem with cells := putCells s.mem.cells a b } }

/-- Bytes from an address set to zero. -/
def State.clearMem (s : State) (a n : Nat) : State :=
  { s with mem := { s.mem with cells := s.mem.cells.filter fun c => !(a ≤ c.1 && c.1 < a + n) } }

/-- A message to this device over the pair link acts if its tag verified; else it is discarded and counted (R326). -/
def State.fromPeer (s : State) (ok : Bool) (act : State → State) : State :=
  if ok then act s else (s.bump .pairAuthCnt).perfEvent 15 0x12

/-! Contexts: binding, role, tags (Tables 9.1 and 9.2, R269). -/

def State.ctx (s : State) (x : Ctx) : Context := s.ctxs.getD x.val .reset

def State.modCtx (s : State) (x : Ctx) (f : Context → Context) : State := { s with ctxs := s.ctxs.modify x.val f }

/-- The binding code of a context (Table 9.1). -/
def State.bindingOf (s : State) (x : Ctx) : Nat := s.parField .hostCtxBind x 3 0

/-- The role code of a context (Table 9.2). -/
def State.roleOf (s : State) (x : Ctx) : Nat := s.parField .hostCtxBind x 6 4

/-- The context is bound to a PCIe function. -/
def State.onPcie (s : State) (x : Ctx) : Bool := within 1 8 (s.bindingOf x)

/-- The peg port that the context is bound to. -/
def State.pegOf (s : State) (x : Ctx) : Option (Fin 2) :=
  if s.bindingOf x = 9 then some 0 else if s.bindingOf x = 10 then some 1 else none

/-- A pair-partner context counts as authenticated while the pair stands (R256, R326). -/
def State.isAuth (s : State) (x : Ctx) : Bool :=
  if s.bindingOf x = 11 then s.pair.mode == .paired else (s.ctx x).auth.isSome

/-- The role is OWNER, INTEGRATOR, OPERATOR or VIEWER and at least as high as a code (R254). -/
def roleAtLeast (need role : Nat) : Bool := within 1 need role

/-- A grant is valid (R314): its epoch is the device's and its time is not past. -/
def State.grantValid (s : State) (x : Ctx) : Bool :=
  match (s.ctx x).auth.bind (·.grant) with
  | some g => g.epoch == s.sec.otp.epoch && s.ledger.minutes < g.notAfter
      && (s.sec.otp.slots.getD g.slot (0, [])).1 == 1
  | none => false

/-- A right of a SERVICE context's valid grant (Table 10.10). -/
def State.grantRight (s : State) (x : Ctx) (bit : Nat) : Bool :=
  s.grantValid x && (match (s.ctx x).auth.bind (·.grant) with | some g => bitOf g.rights bit | none => false)

/-- All contexts, CTX0 first. -/
def allCtx : List Ctx := List.finRange 8

/-- All tiles, T0 first. -/
def allTiles : List Tile := List.finRange 8

/-! Interrupt vectors (Table 9.5, R266). -/

/-- A vector is raised now: its status bit is set, and the message goes out unless it is masked. -/
def State.vectorNow (s : State) (x : Ctx) (vec : Nat) : State :=
  let bit : BitVec 3 := BitVec.ofNat 3 (2 ^ vec)
  let s1 := s.modCtx x fun c => { c with irqStatus := c.irqStatus ||| bit }
  if (s.ctx x).irqMask &&& bit = 0 then { s1 with out := s1.out ++ [.irq x vec] } else s1

/-- A vector of the context is inside its holdoff of HOST_IRQ_MOD microseconds (R266). -/
def State.irqHeld (s : State) (x : Ctx) (vec : Nat) : Bool :=
  (s.ctx x).irqHold.getLsbD vec && decide (s.time < (s.ctx x).irqAt.getD vec 0 + s.par .hostIrqMod x * 1000)

/-- The completion or event vector (R266): held back inside its holdoff, else raised, which starts the holdoff. -/
def State.vector (s : State) (x : Ctx) (vec : Nat) : State :=
  let bit : BitVec 2 := BitVec.ofNat 2 (2 ^ vec)
  if s.irqHeld x vec then s.modCtx x fun c => { c with irqBack := c.irqBack ||| bit }
  else
    (s.vectorNow x vec).modCtx x fun c =>
      { c with
        irqHold := if s.par .hostIrqMod x = 0 then c.irqHold &&& ~~~ bit else c.irqHold ||| bit
        irqBack := c.irqBack &&& ~~~ bit, irqAt := c.irqAt.set vec s.time }

/-- The rings of a context enter an error state (Table 9.5): the cause is recorded and vector 2 raised. After a bad doorbell
or a DMA error fetching stops until the rings are enabled again (R263). -/
def State.ringError (s : State) (x : Ctx) (cause : Nat) : State :=
  (s.modCtx x fun c =>
    { c with ringErr := cause, fetchStop := c.fetchStop || cause == 2 || cause == 3 }).vectorNow x 2

/-! Peg transmission and records (Tables 9.9, 9.19, 9.4). -/

def Status.code : Status → Nat
  | .done => 0x00
  | .doneMarked => 0x01
  | .badOpcode => 0x10
  | .badParam => 0x11
  | .notPermitted => 0x12
  | .busy => 0x13
  | .staleGeneration => 0x14
  | .incoherent => 0x15
  | .aborted => 0x20
  | .failedFault => 0x21
  | .failedFailover => 0x22
  | .timeout => 0x23
  | .authFail => 0x30
  | .locked => 0x31
  | .nvFull => 0x40
  | .nvCommitFail => 0x41
  | .imageBad => 0x50
  | .rollbackRefused => 0x51

/-- The status of a code of Table 9.12. -/
def statusOf (code : Nat) : Status :=
  ([.done, .doneMarked, .badOpcode, .badParam, .notPermitted, .busy, .staleGeneration, .incoherent, .aborted, .failedFault,
    .failedFailover, .timeout, .authFail, .locked, .nvFull, .nvCommitFail, .imageBad, .rollbackRefused].find?
      fun k => k.code == code).getD .failedFault

/-- The 16 bytes of a reply (Table 9.9). -/
def Reply.bytes (r : Reply) : Bytes :=
  leBytes 2 r.tag ++ leBytes 1 r.status.code ++ leBytes 1 ((if r.phase then 1 else 0) + if r.early then 2 else 0)
    ++ leBytes 4 r.result ++ leBytes 8 r.time

/-- The 64 bytes of an event record (Table 9.19). -/
def Event.bytes (e : Event) : Bytes :=
  leBytes 2 e.code ++ leBytes 1 (if e.phase then 1 else 0) ++ [0] ++ leBytes 4 e.seq ++ leBytes 8 e.time
    ++ leBytes 6 e.frame ++ [0, 0] ++ padTo 40 e.detail

/-- A frame joins what a peg port has to send (R260, R395), if the guyline takes it to the F-die (R18). -/
def State.pegSend (s : State) (n : Fin 2) (frame : Bytes) : State :=
  if !s.fdieUp then s
  else ({ s with pegs := s.pegs.modify n.val fun g => { g with txFrames := g.txFrames ++ [frame] } } : State).sendAcross .cf
    (.pegBytes n frame)

/-- An index of a ring moves on by one; the phase inverts where it wraps (R264). -/
def Ring.step (r : Ring) : Ring :=
  if r.tail + 1 < r.size then { r with tail := r.tail + 1 } else { r with tail := 0, phase := !r.phase }

/-- The group bit of an event code (Table 9.20); none: always written. -/
def eventGroup (code : Nat) : Option Nat :=
  if code = 0x0100 then some 0 else if code < 0x0200 then none else some (code / 256 - 1)

/-- The core that handles a context's commands and events is not halted (R416). -/
def State.coreRuns (s : State) (x : Ctx) : Bool := ((s.dbg.halted.getD (s.dbg.coreOf.getD x.val 0) none)).isNone

/-- An event record is written for one context (R265), with when it was raised: into its event ring, or out on its peg port or the pair
link. A full ring discards it and counts it. Rings that are not enabled take no record (log 61). -/
def State.writeEvent (s : State) (x : Ctx) (code : Nat) (detail : Bytes) (at_ : Stamp) : State :=
  let c := s.ctx x
  let e : Event := { code, phase := c.eq.phase, seq := c.evtSeq, time := at_.time, frame := at_.frame
                     detail := padTo 40 detail }
  let next := (c.evtSeq + 1) % 2 ^ 32
  if s.onPcie x then
    if c.ringsOn then
      if c.events.length < c.eq.size then
        ((s.modCtx x fun c => { c with events := c.events ++ [e], eq := c.eq.step, evtSeq := next }).perfEvent 12 0x12).vector
          x 1
      else
        (s.modCtx x fun c =>
          { c with evtSeq := next, lost := some (match c.lost with | some (n, q) => (n + 1, q) | none => (1, e.seq)) }).bump
            .hostEvtLost x
    else s
  else
    match s.pegOf x with
    | some n => ((s.modCtx x fun c => { c with evtSeq := next }).pegSend n (0xC2 :: e.bytes)).perfEvent 12 0x12
    | none =>
      if s.bindingOf x = 11 then
        ({ (s.modCtx x fun c => { c with evtSeq := next }) with out := s.out ++ [.pairEvent x e.bytes] } : State).pairSend .event
          (leBytes 1 x ++ e.bytes)
      else s

/-- An event that was raised at an instant goes to one context. While the core that handles the context is halted it waits (R416); the
records of frames, which are part of their delivery, do not (log 31). -/
def State.eventAt (s : State) (x : Ctx) (code : Nat) (detail : Bytes) (at_ : Stamp) : State :=
  if s.coreRuns x || within 0x0100 0x01FF code then s.writeEvent x code detail at_
  else { s with dbg := { s.dbg with heldEvents := s.dbg.heldEvents ++ [(x, code, detail, at_)] } }

/-- An event that is raised now goes to one context. -/
def State.eventTo (s : State) (x : Ctx) (code : Nat) (detail : Bytes) : State := s.eventAt x code detail s.stamp

/-- Events that waited for a core that runs now, or has given its context to one that runs, are written in their order (R416). -/
def State.releaseEvents (s : State) : State :=
  let held := s.dbg.heldEvents
  let s : State := { s with dbg := { s.dbg with heldEvents := held.filter fun e => !s.coreRuns e.1 } }
  (held.filter fun e => s.coreRuns e.1).foldl (fun s e => s.writeEvent e.1 e.2.1 e.2.2.1 e.2.2.2) s

/-- A context event that was raised at an instant (R291): written if its group is armed, or it has none. -/
def State.ctxEventAt (s : State) (x : Ctx) (code : Nat) (detail : Bytes) (at_ : Stamp) : State :=
  match eventGroup code with
  | none => s.eventAt x code detail at_
  | some g => if (s.ctx x).evtMask.getLsbD g then s.eventAt x code detail at_ else s

/-- A context event (R291). -/
def State.ctxEvent (s : State) (x : Ctx) (code : Nat) (detail : Bytes) : State := s.ctxEventAt x code detail s.stamp

/-- A device event that was raised at an instant (R291): to every context that has its group armed. -/
def State.devEventAt (s : State) (code : Nat) (detail : Bytes) (at_ : Stamp) : State :=
  allCtx.foldl (fun s x => s.ctxEventAt x code detail at_) s

/-- A device event (R291). -/
def State.devEvent (s : State) (code : Nat) (detail : Bytes) : State := s.devEventAt code detail s.stamp

/-- A lost-events record is due and an entry is free (R265). -/
def State.flushLost (s : State) (x : Ctx) : State :=
  match (s.ctx x).lost with
  | none => s
  | some (n, q) =>
    if (s.ctx x).events.length < (s.ctx x).eq.size then
      (s.modCtx x fun c => { c with lost := none }).eventTo x 0x0002 (leBytes 4 n ++ leBytes 4 q)
    else s

/-- A reply is written (R264, R266): into the completion ring, on the peg port, or to the pair partner. -/
def State.replyTo (s : State) (x : Ctx) (r : Reply) : State :=
  let c := s.ctx x
  let r : Reply := { r with phase := c.cq.phase }
  let s := s.perfEvent 12 0x11
  if s.onPcie x then
    if c.ringsOn then (s.modCtx x fun c => { c with replies := c.replies ++ [r], cq := c.cq.step }).vector x 0 else s
  else
    match s.pegOf x with
    | some n => s.pegSend n (0xC1 :: r.bytes)
    | none =>
      if s.bindingOf x = 11 then ({ s with out := s.out ++ [.pairReply x r.bytes] } : State).pairSend .reply (leBytes 1 x ++ r.bytes)
      else s

/-- The live generation of a tag (R269). -/
def State.genOf (s : State) (tag : Nat) : Nat := (keyGet s.gens tag).getD 0

/-- The live generation of a tag advances by 1 modulo 32 (R269). -/
def State.advanceGen (s : State) (tag : Nat) : State :=
  let g := (s.genOf tag + 1) % 32
  { s with gens := if g = 0 then keyDel s.gens tag else keyPut s.gens tag g }

/-- A refusal before the tag is taken (R267, R270): EARLY = 1, and no generation moves. EVENT_ON_DONE adds a CMD_DONE event
(R268). -/
def State.refuse (s : State) (x : Ctx) (rawTag : Nat) (st : Status) (event : Bool) : State :=
  let r : Reply := { tag := rawTag, status := st, early := true, result := 0, time := s.time, phase := (s.ctx x).cq.phase }
  let s := s.replyTo x r
  if event then s.ctxEvent x 0x0001 r.bytes else s

/-- A command in flight ends without a reply (R259, R269). -/
def State.endCmd (s : State) (x : Ctx) (c : Cmd) : State :=
  (s.modCtx x fun k => { k with inflight := k.inflight.filter fun d => d.tag % 2048 != c.tag % 2048 }).advanceGen
    (c.tag % 2048)

/-- The offset of a sample record from its T0, in units of 10 ns (R409). -/
def sampleOffset (t0 t : Time) : Nat := min 0xFFFE ((t - t0) / 10)

/-- A record takes the next entry of the sample buffer; the entries are taken in turn (log 131). -/
def Perf.enterSample (p : Perf) (r : Bytes) : Perf :=
  { p with samples := p.samples ++ [r], entries := keyPut p.entries p.nextEntry r, nextEntry := (p.nextEntry + 1) % 4096 }

/-- A sample record enters the buffer (R410). -/
def State.addSample (s : State) (r : Bytes) : State :=
  if s.perf.samples.length < 4096 then { s with perf := s.perf.enterSample r }
  else if s.parBit .sampleCfg 0 7 then
    ({ s with perf := ({ s.perf with samples := s.perf.samples.drop 1 } : Perf).enterSample r } : State).bump .sampleLostCnt
  else s.bump .sampleLostCnt

/-- The sample record of a command that completed (Table 14.3). The model's steps are indivisible: the tag is taken
at the fetch, and start, first action, effect, reply and event fall at the completion (log 62). A command that never started has not
reached start, first action and effect (R409). -/
def commandSample (x : Ctx) (c : Cmd) (st : Status) (early ran : Bool) (t : Time) : Bytes :=
  let o := sampleOffset c.fetched t
  let run := if ran then o else 0xFFFF
  leBytes 1 (2 + if early then 16 else 0) ++ leBytes 1 x ++ leBytes 2 c.tag ++ leBytes 2 c.opcode ++ leBytes 1 st.code ++ [0]
    ++ leBytes 4 c.hseq ++ leBytes 4 c.fetched
    ++ (if early then List.replicate 12 0xFF else
        leBytes 2 0 ++ leBytes 2 run ++ leBytes 2 run ++ leBytes 2 run ++ leBytes 2 o
          ++ (if c.eventOnDone then leBytes 2 o else [0xFF, 0xFF]))
    ++ (if early then List.replicate 4 0xFF else leBytes 4 (min 0xFFFFFFFF (t - c.fetched)))

/-- A command that took its tag completes (R268, R269): the reply is written, its tag's live generation advances, and
EVENT_ON_DONE adds a CMD_DONE event. ran: the command had started. -/
def State.finish (s : State) (x : Ctx) (c : Cmd) (st : Status) (result : Nat := 0) (ran : Bool := true) : State :=
  let r : Reply := { tag := c.tag, status := st, early := false, result := result % 2 ^ 32, time := s.time
                     phase := (s.ctx x).cq.phase }
  let s := (s.endCmd x c).replyTo x r
  let s := if st = .staleGeneration then s.perfEvent 12 0x14 else s
  let s := if c.eventOnDone then s.ctxEvent x 0x0001 r.bytes else s
  if c.sampled then s.addSample (commandSample x c st false ran s.time) else s

/-- An ABORT whose target has run to completion, or a RESET_CONTEXT after the last command that its target had in flight, is free
to complete (R272, R274). -/
def State.settledBy (s : State) (x : Ctx) (c : Cmd) : Option Nat :=
  match c.wait with
  | .aborting tag => if (s.ctx x).inflight.any fun d => d.tag % 2048 == tag then none else some 1
  | .resetting y n => if (s.ctx y).inflight.any fun d => decide (d.order < c.order) then none else some n
  | _ => none

/-- Waiting ABORT and RESET_CONTEXT commands that are free complete. -/
def State.settleAborts (s : State) : Nat → State
  | 0 => s
  | n + 1 =>
    match (allCtx.flatMap fun x => (s.ctx x).inflight.map fun c => (x, c)).findSome? fun e =>
        if s.coreRuns e.1 then (s.settledBy e.1 e.2).map fun r => (e.1, e.2, r) else none with
    | none => s
    | some (x, c, r) => (s.finish x c .done r).settleAborts n

/-- A command in flight is changed. -/
def State.modCmd (s : State) (x : Ctx) (tag : Nat) (f : Cmd → Cmd) : State :=
  s.modCtx x fun k => { k with inflight := k.inflight.map fun c => if c.tag % 2048 = tag % 2048 then f c else c }

/-- A started command waits (R271). -/
def State.await (s : State) (x : Ctx) (c : Cmd) (w : Wait) : State := s.modCmd x c.tag fun d => { d with wait := w }

/-- The completion of a started command waits while its core is halted, but for one by TIMEOUT or by an abort (R416; log 84). -/
def State.holdsBack (s : State) (x : Ctx) (st : Status) (ran : Bool) : Bool :=
  !s.coreRuns x && ran && st != .timeout && st != .aborted

/-- A command completes, and with it the ABORT and RESET_CONTEXT commands that waited for it. -/
def State.complete (s : State) (x : Ctx) (c : Cmd) (st : Status) (result : Nat := 0) (ran : Bool := true) : State :=
  if s.holdsBack x st ran then s.await x c (.held st result)
  else (s.finish x c st result ran).settleAborts (s.ctxs.map fun k => k.inflight.length).sum

/-- Every command in flight whose wait is chosen ends: with a status and RESULT, oldest first, context by context. -/
def State.completeWhere (s : State) (p : Ctx → Cmd → Option (Status × Nat)) : State :=
  allCtx.foldl (fun s x =>
    ((s.ctx x).inflight.filter fun c => (p x c).isSome).foldl (fun s c =>
      match p x c with
      | some (st, r) => s.complete x c st r
      | none => s) s) s

/-- Every command in flight whose wait is chosen ends with a status, in fetch order over all contexts (R344). -/
def State.completeInOrder (s : State) (p : Ctx → Cmd → Option (Status × Nat)) : State :=
  let all := ((allCtx.flatMap fun x => (s.ctx x).inflight.map fun c => (x, c)).filter fun e => (p e.1 e.2).isSome).mergeSort
    fun a b => a.2.order ≤ b.2.order
  all.foldl (fun s e => match p e.1 e.2 with
    | some (st, r) => s.complete e.1 e.2 st r
    | none => s) s

/-- The oldest command in flight that is chosen, in fetch order over all contexts. -/
def State.findCmd (s : State) (p : Ctx → Cmd → Bool) : Option (Ctx × Cmd) :=
  (allCtx.flatMap fun x => ((s.ctx x).inflight.filter (p x)).map fun c => (x, c)).foldl
    (fun (b : Option (Ctx × Cmd)) e => match b with
      | none => some e
      | some o => if e.2.order < o.2.order then some e else b) none

/-- A free value of the spec is taken (log 2). -/
def State.takeFree (s : State) (width : Nat) : Nat × State :=
  (Config.freeValue s.free width % 2 ^ width, { s with free := s.free + 1 })

/-- The time that a PLL takes to relock: at most 40 µs, and else a free value (R358, log 60). -/
def State.relockTime (s : State) : Nat × State :=
  let v := s.takeFree 16
  (v.1 % 40001, v.2)

/-! Registers of the F-die. -/

/-- A value goes to a register wherever it stands: over the guyline to one of the F-die. -/
def State.valueTo (s : State) (p : Param) (i v : Nat) : State := if onFDie p i then s.valueAcross (p.id i) v else s

/-! Peg ports. -/

def State.peg (s : State) (n : Nat) : Peg := s.pegs.getD n .reset
def State.modPeg (s : State) (n : Nat) (f : Peg → Peg) : State := { s with pegs := s.pegs.modify n f }

/-- PEG_CFG[n] in effect: a change waits for the end of a running master transfer (R391). -/
def State.pegSetup (s : State) (n : Nat) : Nat := (s.peg n).held.getD (s.par .pegCfg n)

/-- The port is in slave mode (PEG_CFG[n][0]; R391). -/
def State.pegSlave (s : State) (n : Nat) : Bool := bitOf (s.pegSetup n) 0

/-! Tiles. -/

def State.tile (s : State) (t : Tile) : TileSt := s.tiles.getD t.val .reset

def State.modTile (s : State) (t : Tile) (f : TileSt → TileSt) : State := { s with tiles := s.tiles.modify t.val f }

def State.dr (s : State) (t : Tile) : Drift := s.drift.getD t.val .reset

def State.modDrift (s : State) (t : Tile) (f : Drift → Drift) : State := { s with drift := s.drift.modify t.val f }

/-- TILE_EN = 1: the tile is enabled in the active configuration. -/
def State.tileOn (s : State) (t : Tile) : Bool := s.par .tileEn t == 1

/-- A context's or a port's stream is started (R281). -/
def State.anyStream (s : State) : Bool := s.ctxs.any (·.mv.started) || s.outs.any (·.stream.started)

end Sys2Proof.Machine
end

