-- ==== Sys2Proof/Machine/Operands.lean ====
section
/-!
DEFINITION. The operand forms of the host commands: the header of Table 9.7 read from and laid out in bytes, the opcodes
of Table 9.11 with their roles, the fetch with its checks 1 to 6 (R267), the ordering of starts (R271), the scatter area
(Table 9.8), and the device memory that each role may reach (Table 10.2).
-/
namespace Sys2Proof.Machine

/-! The command header. -/

/-- The fields of a command header (Table 9.7); reserved holds the reserved bits, zero in a legal header. -/
structure Header where
  opcode : Nat
  tag : Nat
  ctx : Nat
  flags : Nat
  inlineLen : Nat
  hseq : Nat
  timeout : Nat
  sgAddr : Nat
  sgEntries : Nat
  reserved : Nat
deriving DecidableEq, Repr

/-- The header that 32 bytes spell. Reserved bits are gathered: CTX[7:3], FLAGS[7:3], INLINE_LEN[15:13], bytes 26 to 31. -/
def parseHeader (b : Bytes) : Header :=
  { opcode := leAt b 0 2, tag := leAt b 2 2, ctx := leAt b 4 1 % 8, flags := leAt b 5 1 % 8
    inlineLen := leAt b 6 2 % 8192, hseq := leAt b 8 4, timeout := leAt b 12 4, sgAddr := leAt b 16 8
    sgEntries := leAt b 24 2
    reserved := leAt b 4 1 / 8 + 32 * (leAt b 5 1 / 8) + 1024 * (leAt b 6 2 / 8192) + 8192 * leAt b 26 6 }

/-- The 32 bytes of a header. -/
def Header.bytes (h : Header) : Bytes :=
  leBytes 2 h.opcode ++ leBytes 2 h.tag ++ leBytes 1 (h.ctx + 8 * (h.reserved % 32))
    ++ leBytes 1 (h.flags + 8 * (h.reserved / 32 % 32)) ++ leBytes 2 (h.inlineLen + 8192 * (h.reserved / 1024 % 8))
    ++ leBytes 4 h.hseq ++ leBytes 4 h.timeout ++ leBytes 8 h.sgAddr ++ leBytes 2 h.sgEntries
    ++ leBytes 6 (h.reserved / 8192)

/-- Every field of a header fits its bits. -/
def Header.fits (h : Header) : Bool :=
  h.opcode < 2 ^ 16 && h.tag < 2 ^ 16 && h.ctx < 8 && h.flags < 8 && h.inlineLen < 2 ^ 13 && h.hseq < 2 ^ 32
    && h.timeout < 2 ^ 32 && h.sgAddr < 2 ^ 64 && h.sgEntries < 2 ^ 16 && h.reserved < 2 ^ 61

/-- Check 1 of Table 9.10. -/
def Header.legal (h : Header) (x : Ctx) : Bool :=
  h.reserved == 0 && h.inlineLen ≤ 4096 && (if h.sgAddr == 0 then h.sgEntries == 0 else within 1 256 h.sgEntries)
    && h.sgAddr % 16 == 0 && h.ctx == x.val

/-! The opcodes of Table 9.11. -/

/-- The role column of Table 9.11. -/
inductive Need where | any | v | o | i | w | sGrant
deriving DecidableEq, Repr

/-- Role and persistence of an opcode; none where it is unassigned. PARAM_WRITE's roles follow the block (R288). -/
def opcodeInfo : Nat → Option (Need × Bool)
  | 0x0001 => some (.any, false)
  | 0x0002 => some (.any, false)
  | 0x0003 => some (.v, false)
  | 0x0010 => some (.v, false)
  | 0x0020 => some (.v, false)
  | 0x0030 => some (.v, false)
  | 0x1001 => some (.v, false)
  | 0x1002 => some (.v, false)
  | 0x1003 => some (.o, false)
  | 0x2001 => some (.o, false)
  | 0x2002 => some (.o, false)
  | 0x2010 => some (.o, false)
  | 0x2011 => some (.o, false)
  | 0x3001 => some (.i, false)
  | 0x3002 => some (.i, false)
  | 0x3003 => some (.i, true)
  | 0x3004 => some (.v, false)
  | 0x4001 => some (.o, false)
  | 0x4002 => some (.o, false)
  | 0x4003 => some (.v, false)
  | 0x5001 => some (.v, false)
  | 0x5002 => some (.o, false)
  | 0x6001 => some (.v, false)
  | 0x6002 => some (.i, true)
  | 0x6003 => some (.i, true)
  | 0x6004 => some (.w, false)
  | 0x6010 => some (.v, false)
  | 0x6011 => some (.sGrant, true)
  | 0x7001 => some (.any, false)
  | 0x7002 => some (.any, false)
  | 0x7010 => some (.v, false)
  | 0x7020 => some (.w, true)
  | 0x8001 => some (.sGrant, false)
  | 0x8002 => some (.sGrant, true)
  | 0x8003 => some (.sGrant, true)
  | 0x8004 => some (.sGrant, true)
  | 0x9001 => some (.i, false)
  | 0x9002 => some (.v, false)
  | 0x9003 => some (.i, false)
  | 0xA001 => some (.v, false)
  | 0xA002 => some (.v, false)
  | 0xA003 => some (.sGrant, false)
  | _ => none

/-- The opcodes that the basecamp image accepts (R311). -/
def basecampOpcode (op : Nat) : Bool :=
  [0x0001, 0x0002, 0x0003, 0x7001, 0x7002, 0x7010, 0x8001, 0x8002, 0x8003].contains op

/-- The role of a context meets a need (R254, Table 9.11). -/
def State.meets (s : State) (x : Ctx) (n : Need) : Bool :=
  let r := s.roleOf x
  match n with
  | .any => true
  | .v => within 1 5 r
  | .o => roleAtLeast 3 r
  | .i => roleAtLeast 2 r
  | .w => r == 1
  | .sGrant => r == 1 || (r == 5 && s.grantValid x)

/-- Check 6: role 0 may issue NOP and GET_INFO only; an unauthenticated context also the authentication exchange (R256);
an owner authenticated in MODE 3 NOP, GET_INFO, ATTEST and OWNER_PROVISION (R312). -/
def State.permits (s : State) (x : Ctx) (op : Nat) (n : Need) : Bool :=
  let auth := op == 0x7001 || op == 0x7002
  let bare := op == 0x0001 || op == 0x0002
  let mode3 := (match (s.ctx x).auth with | some a => a.mode == 3 | none => false)
  if s.roleOf x == 0 then bare
  else if !s.isAuth x then bare || auth
  else if mode3 then bare || op == 0x7010 || op == 0x7020
  else s.meets x n

/-- The tag lies in the context's range (R269). -/
def State.ownsTag (s : State) (x : Ctx) (tag : Nat) : Bool :=
  s.par .hostTagBase x ≤ tag && tag < s.par .hostTagBase x + s.par .hostTagCount x

/-- A staged value of the context belongs to a persistent parameter. -/
def State.stagesPersistent (s : State) (x : Ctx) : Bool :=
  (s.ctx x).staged.any fun e => match paramOf e.1 with | some (p, _) => p.row.persistent | none => false

/-- The command changes what the NV store keeps (Table 9.11, column P). -/
def State.persistent (s : State) (x : Ctx) (op : Nat) : Bool :=
  match opcodeInfo op with
  | some (_, p) => p || (op == 0x1003 && s.stagesPersistent x)
  | none => false

/-! Fetch (R263, R264, R267, R270, R408). -/

/-- The sampler looks at a candidate (R408): the LFSR moves on, and the answer says whether it is tagged. -/
def State.sampleStep (s : State) (kind : Nat) : Bool × State :=
  if s.parField .sampleCfg 0 1 0 == kind then
    let l := s.perf.lfsr
    let n : BitVec 31 := (l <<< 1) ||| BitVec.ofNat 31 (if Bool.xor (l.getLsbD 30) (l.getLsbD 27) then 1 else 0)
    (n.toNat % 2 ^ s.parField .sampleCfg 0 6 2 == 0, { s with perf := { s.perf with lfsr := n } })
  else (false, s)

/-- The context forwards, and the command is none that it handles itself (R342). -/
def State.passesOn (s : State) (x : Ctx) (op : Nat) : Bool :=
  s.parBit .pairFwd x 0 && !([0x0001, 0x0002, 0x7001, 0x7002, 0x0010].contains op)

/-- PAIR_FWD passes this command to the partner context (R342). -/
def State.forwards (s : State) (x : Ctx) (op : Nat) : Bool := s.pair.mode == .paired && s.passesOn x op

/-- The partner context of a forwarding context. -/
def State.partnerCtx (s : State) (x : Ctx) : Ctx := ⟨s.parField .pairFwd x 3 1 % 8, Nat.mod_lt _ (by decide)⟩

/-- After a planned handover a forwarding context has no partner context (R346). -/
def State.handedOver (s : State) (x : Ctx) (op : Nat) : Bool := s.pair.handed && s.pair.mode != .paired && s.passesOn x op

/-- A command that passes checks 1 to 4 takes its tag and is in flight. -/
def State.takeTag (s : State) (x : Ctx) (h : Header) (payload : Bytes) (sampled : Bool) (w : Wait) : State × Cmd :=
  let c : Cmd :=
    { opcode := h.opcode, tag := h.tag, ordered := bitOf h.flags 0, fence := bitOf h.flags 1, eventOnDone := bitOf h.flags 2
      hseq := h.hseq, deadline := if h.timeout = 0 then none else some (s.time + h.timeout * 1000000)
      sgAddr := h.sgAddr, sgEntries := h.sgEntries, payload, order := s.fetches, fetched := s.time, sampled, wait := w }
  ({ (s.modCtx x fun k => { k with inflight := k.inflight ++ [c] }) with fetches := s.fetches + 1 }, c)

/-- A refusal with EARLY = 1: counted, and recorded by the sampler if the command was tagged (R270, Table 14.3). -/
def State.refuseEarly (s : State) (x : Ctx) (h : Header) (sampled : Bool) (st : Status) : State :=
  let s := if st = .staleGeneration then (s.bump .hostStaleCnt x).perfEvent 12 0x14 else s.bump .hostRejectCnt x
  let s := s.refuse x h.tag st (bitOf h.flags 2)
  let c : Cmd :=
    { opcode := h.opcode, tag := h.tag, ordered := false, fence := false, eventOnDone := false, hseq := h.hseq
      deadline := none, sgAddr := 0, sgEntries := 0, payload := [], order := 0, fetched := s.time, sampled
      wait := .notStarted }
  if sampled then s.addSample (commandSample x c st true false s.time) else s

/-- A command goes to the peer for its partner context (R342). -/
def State.sendForward (s : State) (x : Ctx) (h : Header) (payload : Bytes) : State :=
  let p := s.partnerCtx x
  ({ s with out := s.out ++ [.forward x p h.opcode h.tag payload] } : State).pairSend .command (leBytes 1 p ++ [0] ++ h.bytes ++ payload)

/-- A fetched command passes checks 1 to 6 or is refused (R267). A forwarded command leaves after check 1, and the partner
context makes the remaining checks: checked says that check 1 has been made (R342). A persistent command fetched while PFW_N is
asserted completes BUSY (R369); the role that PAIR_JOIN needs is check 1 of its own table, and RESULT names it (R327). -/
def State.fetchCommand (s : State) (x : Ctx) (h : Header) (payload : Bytes) (checked : Bool := false) : State :=
  let s := s.perfEvent 12 0x10
  let r := s.sampleStep 2
  let sampled := r.1
  let s := r.2
  let tag := h.tag % 2048
  if !checked && !h.legal x then s.refuseEarly x h sampled .badParam
  else if s.forwards x h.opcode then (s.takeTag x h payload sampled .forwarded).1.sendForward x h payload
  else if !s.ownsTag x tag then s.refuseEarly x h sampled .notPermitted
  else if h.tag / 2048 != s.genOf tag then s.refuseEarly x h sampled .staleGeneration
  else if (s.ctx x).inflight.any fun c => c.tag % 2048 == tag then s.refuseEarly x h sampled .busy
  else
    let p := s.takeTag x h payload sampled .notStarted
    let s := p.1
    let c := p.2
    match opcodeInfo h.opcode with
    | none => s.complete x c .badOpcode 0 false
    | some (n, _) =>
      if s.boot == .basecamp && !basecampOpcode h.opcode then s.complete x c .badOpcode 0 false
      else if s.handedOver x h.opcode then s.complete x c .notPermitted 0 false
      else if !s.permits x h.opcode n then
        s.complete x c .notPermitted (if h.opcode = 0x9001 && !s.meets x n then 1 else 0) false
      else if s.clk.pfw && s.clk.pfwSeenC && s.persistent x h.opcode then s.complete x c .busy 0 false
      else s

/-- The host interfaces answer: the boot has reached the basecamp or the running image (R310, Table 12.6). -/
def State.hostUp (s : State) : Bool := s.boot == .running || s.boot == .basecamp

/-- One command leaves the submission ring if it is whole and a completion entry is free for it (R263, R264). -/
def State.fetchOne (s : State) (x : Ctx) : Option State :=
  let c := s.ctx x
  let h := parseHeader c.sqSlots
  let len := 32 + roundUp 32 h.inlineLen
  if c.ringsOn && !c.fetchStop && 32 ≤ c.sqSlots.length && len ≤ c.sqSlots.length
      && c.inflight.length < c.cq.size - c.replies.length then
    let s := s.modCtx x fun k =>
      { k with sqSlots := k.sqSlots.drop len, sq := { k.sq with head := (k.sq.head + len / 32) % k.sq.size } }
    some (s.fetchCommand x h ((c.sqSlots.drop 32).take h.inlineLen))
  else none

/-- The device fetches every command that the ring holds and it may fetch. -/
def State.fetchAll (s : State) (x : Ctx) : Nat → State
  | 0 => s
  | n + 1 => match s.fetchOne x with
    | some s => s.fetchAll x n
    | none => s

/-- The PCIe link is up: PCIE_PERST_N is high and its reference is there (R355, R370). -/
def State.pcieUp (s : State) : Bool := s.hostUp && s.clk.perst && !s.clk.pllC.isCoasting

/-- Fetching with as many steps as there are slots. -/
def State.fetchRing (s : State) (x : Ctx) : State :=
  if s.pcieUp then s.fetchAll x ((s.ctx x).sqSlots.length / 32) else s

/-! Starts (R271, R416). -/

/-- ABORT and RESET_CONTEXT are never held back. -/
def neverHeld (op : Nat) : Bool := op == 0x0020 || op == 0x0010

/-- A start is held back by the commands fetched earlier that are still in flight. -/
def heldBack (earlier : List Cmd) (c : Cmd) : Bool :=
  !neverHeld c.opcode
    && ((c.fence && !earlier.isEmpty) || (c.ordered && earlier.any fun e => e.ordered && !neverHeld e.opcode)
        || earlier.any fun e => e.fence && !neverHeld e.opcode)

/-- No earlier command of the list waits for a start that nothing holds back: commands start in fetch order. -/
def inOrder : List Cmd → List Cmd → Bool
  | _, [] => true
  | before, e :: r => (e.wait != .notStarted || heldBack before e) && inOrder (before ++ [e]) r

/-- A command of a context may start now. -/
def mayStart (inflight : List Cmd) (c : Cmd) : Bool :=
  let earlier := inflight.filter fun e => e.order < c.order
  !heldBack earlier c && inOrder [] earlier

/-- The command that a row of the table names: in flight on the tag, of the opcode, and free to start. -/
def State.starting (s : State) (x : Ctx) (tag : Nat) (op : Nat) : Option Cmd :=
  match (s.ctx x).inflight.find? fun c => c.tag % 2048 == tag && c.opcode == op with
  | some c =>
    if c.wait == .notStarted && mayStart (s.ctx x).inflight c && s.coreRuns x && s.hostUp then some c else none
  | none => none

/-- A command of the table starts and acts; where none is in flight that may start, nothing but the time moves
(log 8). -/
def State.command (s : State) (t : Time) (x : Ctx) (tag : BitVec 11) (op : Nat) (act : State → Cmd → State) : State :=
  let s := s.advance t
  match s.starting x tag.toNat op with
  | some c => act s c
  | none => s

/-! Scatter areas (Table 9.8, R261). -/

/-- The segments of a scatter list held in device memory. -/
def State.segments (s : State) (addr : Nat) : Nat → List (Nat × Nat)
  | 0 => []
  | n + 1 =>
    (leNat (s.readMem addr 8), leNat (s.readMem (addr + 8) 4)) :: s.segments (addr + 16) n

/-- The context's scatter areas lie in device memory (R261). -/
def State.sgInDevice (s : State) (x : Ctx) : Bool := within 9 11 (s.bindingOf x)

/-- The length of a command's scatter area: the sum of the segments, or what the host's list holds. -/
def State.sgLength (s : State) (x : Ctx) (c : Cmd) (host : Nat) : Nat :=
  if c.sgAddr = 0 then 0
  else if s.sgInDevice x then ((s.segments c.sgAddr c.sgEntries).map (·.2)).sum
  else host

/-- The bytes of a scatter area that the command reads. -/
def State.sgRead (s : State) (x : Ctx) (c : Cmd) (host : Bytes) : Bytes :=
  if c.sgAddr = 0 then []
  else if s.sgInDevice x then (s.segments c.sgAddr c.sgEntries).flatMap fun g => s.readMem g.1 g.2
  else host

/-- Bytes laid into segments in list order. -/
def State.fillSegments (s : State) : List (Nat × Nat) → Bytes → State
  | [], _ => s
  | (a, n) :: r, b => (s.writeMem a (b.take n)).fillSegments r (b.drop n)

/-- The segments from a byte of the data area on. -/
def segmentsFrom : Nat → List (Nat × Nat) → List (Nat × Nat)
  | _, [] => []
  | k, (a, n) :: r => if n ≤ k then segmentsFrom (k - n) r else (a + k, n - k) :: r

/-- A command writes its scatter area from byte k on: host memory, or device memory for a peg or pair-partner context (R261). A
function that a reset has taken off the bus writes nothing (R259). -/
def State.sgWriteAt (s : State) (x : Ctx) (c : Cmd) (k : Nat) (data : Bytes) : State :=
  if c.sgAddr = 0 then s
  else if s.sgInDevice x then s.fillSegments (segmentsFrom k (s.segments c.sgAddr c.sgEntries)) data
  else if (s.ctx x).busOff then s
  else { s with out := s.out ++ [.scatter x c.tag data] }

def State.sgWrite (s : State) (x : Ctx) (c : Cmd) (data : Bytes) : State := s.sgWriteAt x c 0 data

/-! Device memory (Tables 10.2, 8.1). -/

/-- The protection of a region (Table 10.2): none, encrypted, or encrypted with block tags. -/
inductive Protection where | plain | e | et
deriving DecidableEq, Repr

/-- A region of device memory: start, bytes, protection, whether VIEWER may read it, whether OPERATOR may write it. -/
structure Region where
  start : Nat
  size : Nat
  prot : Protection
  readable : Bool
  writable : Bool
deriving DecidableEq, Repr

def mib : Nat := 1048576

/-- The region of an index of Table 10.2 for a memory size in GiB. -/
def region (gib : Nat) : Nat → Region
  | 0 => { start := 0x00000000, size := 64 * mib, prot := .et, readable := false, writable := false }
  | 1 => { start := 0x04000000, size := 256 * mib, prot := .et, readable := true, writable := false }
  | 2 => { start := 0x14000000, size := 104 * mib, prot := .plain, readable := false, writable := false }
  | 3 => { start := 0x1A800000, size := 848 * mib, prot := .e, readable := true, writable := false }
  | 4 => { start := 0x4F800000, size := 32 * mib, prot := .e, readable := true, writable := false }
  | 5 => { start := 0x51800000, size := 72 * mib, prot := .e, readable := true, writable := true }
  | 6 => { start := 0x56000000, size := 160 * mib, prot := .e, readable := true, writable := true }
  | 7 => { start := 0x60000000, size := 6144 * mib, prot := .et, readable := false, writable := false }
  | _ => { start := 0x1E0000000, size := if gib ≤ 8 then 512 * mib else 4096 * mib, prot := .e, readable := true, writable := true }

/-- Addresses of the items inside the regions: those that the spec leaves to the boot stand in the order in which
Table 10.2 lists the contents (log 10). -/
def driftMapAddr : Nat := 0x04000000
def scratchAddr (k : Nat) : Nat := 0x0C000000 + k * 64 * mib
def stagingAddr (k : Nat) : Nat := 0x1A800000 + k * 320 * mib
def historyAddr : Nat := 0x42800000
def candAddr (t : Nat) : Nat := 0x4F800000 + t * 0x8000
def snapAddr : Nat := 0x4F840000
def sampleAddr : Nat := 0x4F860000
def sealAddr (x : Nat) : Nat := 0x4F880000 + x * 0x10000
def sceneAddr (slot : Nat) : Nat := 0x51800000 + slot * 0x1000
def mapAddr (slot : Nat) : Nat := 0x51A00000 + slot * 32 * mib
def paletteAddr : Nat := 0x55A00000
def auxAddr (c : Nat) : Nat := 0x56000000 + c * 40 * mib
def auxInAddr (c slot : Nat) : Nat := auxAddr c + slot * 6 * mib
def auxOutAddr (c slot : Nat) : Nat := auxAddr c + (12 + 9 * slot) * mib
def auxTableAddr (c : Nat) : Nat := auxAddr c + 39 * mib
def calAreaAddr (a : Nat) : Nat := 0x60000000 + a * 0xC0000000
def replayAddr : Nat := 0x1E0000000

/-- A byte of the sample buffer at SAMPLE_ADDR, where an entry has been written; the buffer is part of device memory (R410). -/
def State.sampleByte (s : State) (a : Nat) : Option Byte :=
  if sampleAddr ≤ a && a < sampleAddr + 131072 then
    (keyGet s.perf.entries ((a - sampleAddr) / 32)).map fun r => r.getD ((a - sampleAddr) % 32) 0
  else none

/-- The key of the temporal history of pixel (x, y) of a tile. -/
def histKey (t y x : Nat) : Nat := t * 2 ^ 23 + y * 4096 + x

/-- A byte of the temporal history at FILT_HIST_ADDR, where the pixel's history is not empty: 16 bits a pixel, low byte first, in a span
of 8 MiB for each tile with 2,560 pixels to a row (R212; the layout is the model's, log 49). -/
def State.historyByte (s : State) (a : Nat) : Option Byte :=
  let off := a - historyAddr
  let p := off % (8 * mib) / 2
  if historyAddr ≤ a && off < 64 * mib then
    (keyGet s.history (histKey (off / (8 * mib)) (p / 2560) (p % 2560))).map fun v => BitVec.ofNat 8 (v / 256 ^ (off % 2))
  else none

/-- Device memory as its users read it: n bytes from an address. -/
def State.deviceBytes (s : State) (a n : Nat) : Bytes :=
  (s.readMem a n).mapIdx fun i b => (s.sampleByte (a + i) <|> s.historyByte (a + i)).getD b

/-- Two byte ranges share a byte. -/
def overlaps (a n b m : Nat) : Bool := a < b + m && b < a + n && 0 < n && 0 < m

/-- A range lies in regions that are all open in a way. -/
def openRange (gib : Nat) (ok : Region → Bool) (a n : Nat) : Bool :=
  a + n ≤ (region gib 8).start + (region gib 8).size
    && ((List.range 9).map (region gib)).all fun r => !overlaps a n r.start r.size || ok r

/-- An input slot of the auxiliary area: free, queued or processing (R241). -/
def State.auxSlotState (s : State) (cam slot : Nat) : Nat :=
  match s.aux.job with
  | some (j, _) =>
    if j.cam == cam && j.slot == slot then 2
    else if s.aux.queue.any fun q => q.cam == cam && q.slot == slot then 1 else 0
  | none => if s.aux.queue.any fun q => q.cam == cam && q.slot == slot then 1 else 0

/-- A range of device memory may be written: its regions are open to it, and no active slot (R209), no output of the auxiliary
path and no queued input (R241) lies in it. -/
def State.writeStop (s : State) (a n : Nat) : Option Status :=
  if !openRange s.mem.gib (·.writable) a n || overlaps a n (sceneAddr (s.par .radTblSel)) 1024
      || overlaps a n (mapAddr (s.par .radMapSel)) (32 * mib)
      || (List.range 4).any (fun c => overlaps a n (auxOutAddr c 0) (27 * mib)) then some .notPermitted
  else if (List.range 8).any fun k =>
      s.auxSlotState (k / 2) (k % 2) != 0 && overlaps a n (auxInAddr (k / 2) (k % 2)) (6 * mib) then some .busy
  else none

/-- The status with which a read of device memory is refused (R275, Table 10.2). -/
def State.readRefusal (s : State) (x : Ctx) (a n : Nat) : Option Status :=
  if s.mem.gib * 1024 * mib < a + n then some .badParam
  else if !s.meets x .v || !openRange s.mem.gib (·.readable) a n then some .notPermitted
  else none

/-- The status with which a write of device memory is refused (R275, R209, R241). -/
def State.writeRefusal (s : State) (x : Ctx) (a n : Nat) : Option Status :=
  if s.mem.gib * 1024 * mib < a + n then some .badParam
  else if !s.meets x .o then some .notPermitted
  else s.writeStop a n

/-- Scatter areas in device memory keep to its regions as DATA_READ and DATA_WRITE do (R196, R275): the list and its segments
are read where the command reads its area, and written where it writes it (log 113). -/
def State.areaStop (s : State) (x : Ctx) (c : Cmd) (reads : Bool) : Option Status :=
  if c.sgAddr = 0 || !s.sgInDevice x then none
  else
    let list := (c.sgAddr, 16 * c.sgEntries)
    let segs := s.segments c.sgAddr c.sgEntries
    let beyond (g : Nat × Nat) : Bool := decide (s.mem.gib * 1024 * mib < g.1 + g.2)
    let closed (g : Nat × Nat) : Bool := !openRange s.mem.gib (·.readable) g.1 g.2
    if beyond list || segs.any beyond then some .badParam
    else if closed list then some .notPermitted
    else if reads then (if segs.any closed then some .notPermitted else none)
    else segs.findSome? fun g => s.writeStop g.1 g.2

/-- A command writes a record to its scatter area and completes; an area that is too short is a bad payload (log 9). -/
def State.writeRecord (s : State) (x : Ctx) (c : Cmd) (host : Nat) (data : Bytes) (result : Nat) : State :=
  if s.sgLength x c host < data.length then s.complete x c .badParam
  else match s.areaStop x c false with
    | some st => s.complete x c st
    | none => (s.sgWrite x c data).complete x c .done result

end Sys2Proof.Machine
end

