-- ==== Sys2Proof/Machine/Crypt.lean ====
section
/-!
DEFINITION. External memory as its devices hold it (R295, R300 to R302): channels, encryption and block tags. The model's memory
cells hold the plaintext that the device works on.
-/
namespace Sys2Proof.Machine

/-! Channels (R295). -/

/-- The channel of a device memory address. -/
def channelOf (a : Nat) : Nat := a / 256 % 8

/-- The device memory address of byte l of a channel. -/
def channelAddr (m l : Nat) : Nat := (l / 256 * 8 + m) * 256 + l % 256

/-- The 64-byte transfers on channel m that an access to n bytes at a makes. -/
def transfersOn (a n m : Nat) : Nat :=
  if n = 0 then 0
  else ((List.range ((a + n - 1) / 64 + 1 - a / 64)).filter fun i => channelOf (64 * (a / 64 + i)) == m).length

/-- An access by a host counts on its channels (Table 14.1). -/
def State.countAccess (s : State) (a n : Nat) (write : Bool) : State :=
  (List.range 8).foldl (fun s m => s.perfEvent 11 ((if write then 0x18 else 0x10) + m) (transfersOn a n m)) s

/-! Encryption and tags (R300 to R302). -/

/-- The random draws of the boot that gave the keys: the two XTS keys as one, and the tag key (R302). -/
def State.xtsKey (s : State) : Bytes :=
  let d := s.sec.bootDraw.getD 0
  padTo 32 (Config.random d 32) ++ padTo 32 (Config.random (d + 1) 32)
def State.tagKey (s : State) : Bytes := padTo 32 (Config.random (s.sec.bootDraw.getD 0 + 2) 32)

/-- The protection of an address (Table 10.2). -/
def State.protAt (s : State) (a : Nat) : Protection :=
  match ((List.range 9).map (region s.mem.gib)).find? fun r => r.start ≤ a && a < r.start + r.size with
  | some r => r.prot
  | none => .plain

/-- The 512 bytes of a block as the memory holds them: XTS-AES-256 with the block's address divided by 512 as tweak (R300). -/
def State.cipherBlock (s : State) (block : Nat) : Bytes :=
  let p := s.readMem (512 * block) 512
  if s.protAt (512 * block) = .plain then p else padTo 512 (Config.xtsEncrypt s.xtsKey block p)

/-- The tag of a block of an ET region: the first 64 bits of AES-256-CMAC over its address and its ciphertext (R301). -/
def State.blockTag (s : State) (block : Nat) : Bytes :=
  padTo 8 (Config.cmac s.tagKey (leBytes 8 (512 * block) ++ s.cipherBlock block))

/-- The block whose tag stands at index i of the TAG region: those of SEC, DRIFT and CAL in this order (Table 10.2; log 114). -/
def tagBlock (gib i : Nat) : Option Nat :=
  let blocks (r : Nat) : Nat := (region gib r).size / 512
  let at_ (r k : Nat) : Option Nat := some ((region gib r).start / 512 + k)
  if i < blocks 0 then at_ 0 i
  else if i < blocks 0 + blocks 1 then at_ 1 (i - blocks 0)
  else if i < blocks 0 + blocks 1 + blocks 7 then at_ 7 (i - blocks 0 - blocks 1)
  else none

/-- A byte as the memory devices hold it: ciphertext, or in the TAG region the byte of a tag. -/
def State.storedByte (s : State) (a : Nat) : Byte :=
  let tag := region s.mem.gib 2
  if tag.start ≤ a && a < tag.start + tag.size then
    match tagBlock s.mem.gib ((a - tag.start) / 8) with
    | some b => (s.blockTag b).getD ((a - tag.start) % 8) 0
    | none => 0
  else (s.cipherBlock (a / 512)).getD (a % 512) 0

/-- Byte l of the device on channel m. -/
def State.channelByte (s : State) (m l : Nat) : Byte := s.storedByte (channelAddr m l)

end Sys2Proof.Machine
end

