-- ==== Sys2Proof/Machine/Float32.lean ====
section
/-!
DEFINITION. IEEE 754 binary32 and binary64 as bit patterns, with round to nearest even (R210, R230): exact arithmetic on
integers, then one rounding. ln and exp take one of the two neighbours of the exact result (R210, log 2).
-/
namespace Sys2Proof.Machine

/-- A binary format: significand bits with the hidden one, exponent bits. -/
structure FloatFmt where
  prec : Nat
  ebits : Nat
deriving DecidableEq, Repr

def binary32 : FloatFmt := { prec := 24, ebits := 8 }
def binary64 : FloatFmt := { prec := 53, ebits := 11 }

/-- The exponent of the unit in the last place of a subnormal. -/
def FloatFmt.emin (f : FloatFmt) : Int := 3 - (2 ^ (f.ebits - 1) : Nat) - f.prec

def FloatFmt.signBit (f : FloatFmt) : Nat := 2 ^ (f.prec - 1 + f.ebits)
def FloatFmt.inf (f : FloatFmt) : Nat := (2 ^ f.ebits - 1) * 2 ^ (f.prec - 1)
/-- The quiet NaN that arithmetic answers; 0x7FC0_0000 in binary32. -/
def FloatFmt.nan (f : FloatFmt) : Nat := f.inf + 2 ^ (f.prec - 2)

/-- What a bit pattern stands for: a finite value (-1)^neg * m * 2^e, an infinity, or no number. -/
inductive FloatVal where
  | fin (neg : Bool) (m : Nat) (e : Int)
  | inf (neg : Bool)
  | nan
deriving DecidableEq, Repr

def FloatFmt.val (f : FloatFmt) (b : Nat) : FloatVal :=
  let neg := decide (f.signBit ≤ b)
  let r := b % f.signBit
  let x := r / 2 ^ (f.prec - 1)
  let m := r % 2 ^ (f.prec - 1)
  if x = 2 ^ f.ebits - 1 then (if m = 0 then .inf neg else .nan)
  else if x = 0 then .fin neg m f.emin
  else .fin neg (m + 2 ^ (f.prec - 1)) (f.emin + (x - 1))

/-- A pattern with a sign. -/
def FloatFmt.withSign (f : FloatFmt) (neg : Bool) (r : Nat) : Nat := if neg then f.signBit + r else r

/-- A significand of at most prec bits at an exponent not below emin, laid out; too large answers an infinity. -/
def FloatFmt.pack (f : FloatFmt) (neg : Bool) (m : Nat) (e : Int) : Nat :=
  let r : Nat × Int := if m = 2 ^ f.prec then (2 ^ (f.prec - 1), e + 1) else (m, e)
  let x := (r.2 - f.emin).toNat
  if r.1 < 2 ^ (f.prec - 1) then f.withSign neg r.1
  else if 2 ^ f.ebits - 2 ≤ x then f.withSign neg f.inf
  else f.withSign neg ((x + 1) * 2 ^ (f.prec - 1) + (r.1 - 2 ^ (f.prec - 1)))

/-- m * 2^e cut to the format: the significand, its exponent, the part cut off, and the size of one unit. -/
def FloatFmt.cut (f : FloatFmt) (m : Nat) (e : Int) : Nat × Int × Nat × Nat :=
  let top : Int := (Nat.log2 m : Nat) + e - ((f.prec - 1 : Nat) : Int)
  let x := max top f.emin
  if x ≤ e then (m * 2 ^ (e - x).toNat, x, 0, 1)
  else
    let u := 2 ^ (x - e).toNat
    (m / u, x, m % u, u)

/-- m * 2^e, with a little more where sticky is set, rounded to nearest even. -/
def FloatFmt.round (f : FloatFmt) (neg : Bool) (m : Nat) (e : Int) (sticky : Bool := false) : Nat :=
  if m = 0 then f.withSign neg 0
  else
    let (q, x, r, u) := f.cut m e
    let up := decide (u < 2 * r) || (decide (2 * r = u) && (sticky || q % 2 == 1))
    f.pack neg (if up then q + 1 else q) x

def FloatFmt.ofInt (f : FloatFmt) (v : Int) : Nat := f.round (decide (v < 0)) v.natAbs 0

/-- The sum (round to nearest even; a zero sum of unlike signs is +0). -/
def FloatFmt.add (f : FloatFmt) (a b : Nat) : Nat :=
  match f.val a, f.val b with
  | .fin na ma ea, .fin nb mb eb =>
    let e := min ea eb
    let va : Int := (if na then -1 else 1) * ((ma * 2 ^ (ea - e).toNat : Nat) : Int)
    let vb : Int := (if nb then -1 else 1) * ((mb * 2 ^ (eb - e).toNat : Nat) : Int)
    if va + vb = 0 then f.withSign (na && nb) 0 else f.round (decide (va + vb < 0)) (va + vb).natAbs e
  | .inf n, .fin _ _ _ => f.withSign n f.inf
  | .fin _ _ _, .inf n => f.withSign n f.inf
  | .inf n, .inf k => if n = k then f.withSign n f.inf else f.nan
  | _, _ => f.nan

def FloatFmt.neg (f : FloatFmt) (a : Nat) : Nat := if a < f.signBit then a + f.signBit else a - f.signBit

def FloatFmt.sub (f : FloatFmt) (a b : Nat) : Nat := f.add a (f.neg b)

def FloatFmt.mul (f : FloatFmt) (a b : Nat) : Nat :=
  match f.val a, f.val b with
  | .fin na ma ea, .fin nb mb eb => f.round (na != nb) (ma * mb) (ea + eb)
  | .inf n, .fin k m _ => if m = 0 then f.nan else f.withSign (n != k) f.inf
  | .fin k m _, .inf n => if m = 0 then f.nan else f.withSign (n != k) f.inf
  | .inf n, .inf k => f.withSign (n != k) f.inf
  | _, _ => f.nan

def FloatFmt.div (f : FloatFmt) (a b : Nat) : Nat :=
  match f.val a, f.val b with
  | .fin na ma ea, .fin nb mb eb =>
    if mb = 0 then (if ma = 0 then f.nan else f.withSign (na != nb) f.inf)
    else
      let k := 2 * f.prec + 4
      f.round (na != nb) (ma * 2 ^ k / mb) (ea - eb - k) (ma * 2 ^ k % mb != 0)
  | .inf n, .fin k _ _ => f.withSign (n != k) f.inf
  | .fin n _ _, .inf k => f.withSign (n != k) 0
  | _, _ => f.nan

/-- The integer square root by bisection of its bits. -/
def isqrt (n : Nat) : Nat :=
  (List.range (Nat.log2 n / 2 + 1)).foldr (fun i r => if (r + 2 ^ i) * (r + 2 ^ i) ≤ n then r + 2 ^ i else r) 0

def FloatFmt.sqrt (f : FloatFmt) (a : Nat) : Nat :=
  match f.val a with
  | .fin neg m e =>
    if m = 0 then f.withSign neg 0
    else if neg then f.nan
    else
      let k := 2 * f.prec + 4
      let s : Nat := if (e - 2 * k) % 2 = 0 then 0 else 1
      let n := m * 2 ^ (2 * k + s)
      let r := isqrt n
      f.round false r ((e - 2 * k - s) / 2) (r * r != n)
  | .inf false => f.inf
  | _ => f.nan

/-- a < b as numbers; false where either is no number. -/
def FloatFmt.lt (f : FloatFmt) (a b : Nat) : Bool :=
  let key (v : FloatVal) (raw : Nat) : Option Int :=
    match v with
    | .nan => none
    | .fin n m _ => if m = 0 then some 0 else some (if n then -((raw % f.signBit : Nat) : Int) else (raw : Int))
    | .inf n => some (if n then -(f.inf : Int) else (f.inf : Int))
  match key (f.val a) a, key (f.val b) b with
  | some x, some y => decide (x < y)
  | _, _ => false

def FloatFmt.isFinite (f : FloatFmt) (a : Nat) : Bool := match f.val a with | .fin _ _ _ => true | _ => false

/-- A value of one format in another. -/
def FloatFmt.convert (f g : FloatFmt) (a : Nat) : Nat :=
  match f.val a with
  | .fin n m e => g.round n m e
  | .inf n => g.withSign n g.inf
  | .nan => g.nan

/-! ln and exp in fixed point with 320 fraction bits. -/

def fxBits : Nat := 320
def fxOne : Int := (2 ^ fxBits : Nat)
def fxMul (a b : Int) : Int := a * b / fxOne

/-- 2 * atanh(z) for |z| ≤ 1/3. -/
def fxAtanh2 (z : Int) : Int :=
  let z2 := fxMul z z
  2 * ((List.range 110).foldl (fun (acc : Int × Int) i => (acc.1 + acc.2 / ((2 * i + 1 : Nat) : Int), fxMul acc.2 z2)) (0, z)).1

/-- ln 2. -/
def fxLn2 : Int := fxAtanh2 (fxOne / 3)

/-- ln(m * 2^e) for m > 0. -/
def fxLn (m : Nat) (e : Int) : Int :=
  let l := Nat.log2 m
  let y : Int := ((m * 2 ^ fxBits / 2 ^ l : Nat) : Int)
  fxAtanh2 ((y - fxOne) * fxOne / (y + fxOne)) + ((l : Nat) + e) * fxLn2

/-- exp(x): a Taylor sum of x / 256, squared eight times. -/
def fxExp (x : Int) : Int :=
  let y := x / 256
  let t := ((List.range 60).foldl (fun (acc : Int × Int) i => (acc.1 + acc.2, fxMul acc.2 y / ((i + 1 : Nat) : Int))) (0, fxOne)).1
  (List.range 8).foldl (fun v _ => fxMul v v) t

/-- One of the two binary32 neighbours of an inexact value. -/
def pickNeighbour (which : Nat) (arg : Nat) (neg : Bool) (m : Nat) (e : Int) : Nat :=
  if m = 0 then binary32.withSign neg (if Config.ulpUp which (BitVec.ofNat 32 arg) then 1 else 0)
  else
    let (q, x, _, _) := binary32.cut m e
    binary32.pack neg (if Config.ulpUp which (BitVec.ofNat 32 arg) then q + 1 else q) x

/-- ln in binary32, within 1 ulp (R210). -/
def lnF (a : Nat) : Nat :=
  match binary32.val a with
  | .fin neg m e =>
    if m = 0 then binary32.withSign true binary32.inf
    else if neg then binary32.nan
    else if a = 0x3F800000 then 0
    else
      let v := fxLn m e
      pickNeighbour 0 a (decide (v < 0)) v.natAbs (-(fxBits : Int))
  | .inf false => binary32.inf
  | _ => binary32.nan

/-- exp in binary32, within 1 ulp (R210). -/
def expF (a : Nat) : Nat :=
  match binary32.val a with
  | .fin neg m e =>
    if m = 0 then 0x3F800000
    else if binary32.lt 0x42B80000 a then binary32.inf
    else if binary32.lt a 0xC2D40000 then (if Config.ulpUp 1 (BitVec.ofNat 32 a) then 1 else 0)
    else
      let mag : Int := if 0 ≤ e + fxBits then ((m * 2 ^ (e + fxBits).toNat : Nat) : Int)
        else ((m / 2 ^ (-(e + fxBits)).toNat : Nat) : Int)
      pickNeighbour 1 a false (fxExp (if neg then -mag else mag)).natAbs (-(fxBits : Int))
  | .inf neg => if neg then 0 else binary32.inf
  | .nan => binary32.nan

end Sys2Proof.Machine
end

