-- ==== Sys2Proof/Machine/Nodes.lean ====
section
/-!
DEFINITION. The nodes in the pipeline: the slots of the lanes (R406, R407), the nodes that are candidates of the sampler, and
their sample records (R408, R409).
-/
namespace Sys2Proof.Machine

/-! Frames in flight. -/

def State.modFrame (s : State) (num : Nat) (f : Frame → Frame) : State :=
  { s with frames := s.frames.map fun g => if g.num = num then f g else g }

def State.frameOf (s : State) (num : Nat) : Option Frame := s.frames.find? fun f => f.num == num

/-! Lanes (R406, R407). -/

def State.modLane (s : State) (t : Nat) (f : Lane → Lane) : State :=
  { s with perf := { s.perf with lanes := s.perf.lanes.modify t f } }

/-- A number of nodes leaves PENDING for a class. -/
def Lane.retire (l : Lane) (n : Nat) : Lane := { l with retired := l.retired + n, pending := l.pending - n }
def Lane.waste (l : Lane) (n : Nat) : Lane := { l with wasted := l.wasted + n, pending := l.pending - n }

/-- A tile's nodes of a frame that have entered stage 1 and whose fate is not known. -/
def Perf.pipe (p : Perf) (num t : Nat) : Nat := (keyGet p.inPipe (num * 8 + t)).getD 0

/-- That number is set; a frame and tile without such nodes is not listed. -/
def Perf.setPipe (p : Perf) (num t n : Nat) : Perf :=
  { p with inPipe := if n = 0 then keyDel p.inPipe (num * 8 + t) else keyPut p.inPipe (num * 8 + t) n }

def State.modPipe (s : State) (num t : Nat) (g : Nat → Nat) : State :=
  { s with perf := s.perf.setPipe num t (g (s.perf.pipe num t)) }

/-- The number that stands for the replay frame while it is processed: above every 48-bit frame number. -/
def replayNum : Nat := 2 ^ 48

/-! Sample records (R409). -/

/-- The offsets of a number of points from T0, in units of 10 ns, in order: free values, each at or after the one before it. -/
def State.freeOffsets (s : State) (from_ : Nat) : Nat → List Nat × State
  | 0 => ([], s)
  | n + 1 =>
    let r := s.takeFree 26
    let k := r.2.freeOffsets (from_ + r.1) n
    ((from_ + r.1) :: k.1, k.2)

/-- How many of the six points a tagged node reaches: all, a reference node those up to the exit of stage 5, and an abandoned one a
free number of those before its last (R409). -/
def State.pointsOf (s : State) (gone : Bool) (e : TaggedNode) : Nat × State :=
  let last := if e.isRef then 3 else 6
  if gone then
    let r := s.takeFree 8
    (1 + r.1 % (last - 1), r.2)
  else (last, s)

/-- The sample record of a tagged node (Table 14.3, R409). gone: it was abandoned. T0, the offsets of the points it reached and the
part of LATENCY below 10 ns are free values: the spec does not give the instants. -/
def State.pixelSample (s : State) (gone : Bool) (e : TaggedNode) : State :=
  let t0 := s.takeFree 32
  let n := t0.2.pointsOf gone e
  let o := n.2.freeOffsets 0 n.1
  let lat := o.2.takeFree 8
  let whole := !e.isRef && !gone
  let s := if whole then lat.2 else o.2
  s.addSample (leBytes 1 (1 + (if gone then 16 else 0) + if e.replay then 32 else 0) ++ leBytes 1 e.tile ++ leBytes 6 e.label
    ++ leBytes 2 e.row ++ leBytes 2 e.col ++ leBytes 4 t0.1 ++ o.1.flatMap (fun v => leBytes 2 (min 0xFFFE v))
    ++ List.replicate (2 * (6 - n.1)) 0xFF
    ++ (if whole then leBytes 4 (10 * o.1.getD 5 0 + lat.1 % 10) else List.replicate 4 0xFF))

/-! Nodes that enter (R406 to R408). -/

/-- The 800 MHz clock that an instant lies in. -/
def clockOf (t : Time) : Nat := t * 4 / 5

/-- A node is a candidate. A tagged one waits for its fate, which is known where its row has left already. -/
def State.candidate (s : State) (e : Entering) (c : Nat) : State :=
  let p := s.sampleStep 1
  if p.1 then
    let n : TaggedNode :=
      { frame := e.frame, label := e.label, replay := e.replay, tile := e.tile, read := e.read, row := e.row, col := c
        isRef := e.refRow || decide (e.active ≤ c), time := e.time }
    if e.retired then p.2.pixelSample false n
    else { p.2 with perf := { p.2.perf with tagged := p.2.perf.tagged ++ [n] } }
  else p.2

/-- How many nodes of a row enter up to a clock. -/
def Entering.upTo (e : Entering) (clock : Nat) : Nat := max e.next (min e.cols (clock - e.clock))

/-- Every clock before one has brought its candidates, by clock and within a clock by lane (R408). -/
def State.candidatesTo (s : State) (clock : Nat) : State :=
  if s.parField .sampleCfg 0 1 0 = 1 then
    let due := s.perf.entering.flatMap fun e =>
      ((List.range (e.upTo clock)).drop e.next).map fun c => (e.clock + c, e.tile, e, c)
    let due := due.mergeSort fun a b => a.1 < b.1 || (a.1 == b.1 && a.2.1 ≤ b.2.1)
    due.foldl (fun s d => s.candidate d.2.2.1 d.2.2.2) s
  else s

/-- The nodes of a row that enter up to a clock are pending, or retired where the row has left already (R406, R407). -/
def State.enterUpTo (s : State) (at_ : Time) (e : Entering) : State :=
  let n := e.upTo (clockOf at_) - e.next
  let s := s.perfEventAt at_ 6 0x10 n
  if e.retired then s.modLane e.tile fun l => { l with retired := l.retired + n }
  else (s.modLane e.tile fun l => { l with pending := l.pending + n }).modPipe e.frame e.tile (· + n)

/-- Every clock before an instant has brought its nodes into stage 1. -/
def State.nodesTo (s : State) (at_ : Time) : State :=
  let rows := s.perf.entering
  let s := rows.foldl (fun s e => s.enterUpTo at_ e) (s.candidatesTo (clockOf at_))
  let rest := (rows.map fun e => { e with next := e.upTo (clockOf at_) }).filter fun e => e.next < e.cols
  { s with perf := { s.perf with entering := rest } }

/-- The clock from which the lane of a tile is free for a row that arrives at a clock (log 63). -/
def Perf.laneFree (p : Perf) (tile clock : Nat) : Nat :=
  max clock (((p.entering.filter fun k => k.tile == tile).map fun k => k.clock + k.cols).foldl max 0)

/-- The nodes of a row start to enter, one in each clock, from its arrival or behind the row ahead of it in its lane (log 63). The
rows of a replay frame have started with it. -/
def State.startRow (s : State) (e : Entering) : State :=
  if e.frame = replayNum then s
  else
    let s := s.nodesTo s.time
    { s with perf := { s.perf with entering := s.perf.entering ++ [{ e with clock := s.perf.laneFree e.tile (clockOf s.time) }] } }

/-! Nodes that leave (R406, R407). -/

/-- The tagged nodes that are chosen get their records. -/
def State.endTagged (s : State) (gone : Bool) (p : TaggedNode → Bool) : State :=
  let due := s.perf.tagged.filter p
  due.foldl (fun s e => s.pixelSample gone e) { s with perf := { s.perf with tagged := s.perf.tagged.filter fun e => !p e } }

/-- A row leaves its last stage: stage 10 for pixels, the drift stage for reference nodes. Its nodes that have entered are retired, and
one that enters from now on is retired as it enters. -/
def State.leaveRow (s : State) (num t r cols : Nat) : State :=
  let s := s.nodesTo s.time
  let mine (e : Entering) : Bool := e.frame == num && e.tile == t && e.read == r
  let n := cols - ((s.perf.entering.filter mine).map fun e => e.cols - e.next).sum
  let s : State := { s with perf := { s.perf with
    entering := s.perf.entering.map fun e => if mine e then { e with retired := true } else e } }
  ((s.modLane t fun l => l.retire n).modPipe num t (· - n)).endTagged false fun e => e.frame == num && e.tile == t && e.read == r

/-- Every node of a frame leaves its last stage. -/
def State.leaveFrame (s : State) (num : Nat) : State :=
  let s := s.nodesTo s.time
  let s := (List.range 8).foldl (fun s t => (s.modLane t fun l => l.retire (s.perf.pipe num t)).modPipe num t fun _ => 0) s
  s.endTagged false fun e => e.frame == num

/-- The fate of every node of a frame is known (R406 to R409): what has entered and has not left is wasted, what has not entered takes
no slot, and each tagged node gets its record. -/
def State.settleFrame (s : State) (num : Nat) : State :=
  let s := s.nodesTo s.time
  let s : State := { s with perf := { s.perf with entering := s.perf.entering.filter fun e => e.frame != num || e.retired } }
  let s := (List.range 8).foldl (fun s t => (s.modLane t fun l => l.waste (s.perf.pipe num t)).modPipe num t fun _ => 0) s
  s.endTagged true fun e => e.frame == num

end Sys2Proof.Machine
end

