-- ==== Sys2Proof/Machine/Flags.lean ====
section
/-!
DEFINITION. Flags: the region flags of a tile (Table 7.11), the frame flags and the tile block of a frame record (Tables
7.9 and 7.10), the chains and seals of deliveries (R315, R316), failed frames (R283) and the stop of the streams (R282).
-/
namespace Sys2Proof.Machine

/-! Region flags. -/

def flagStale : Nat := 1
def flagLate : Nat := 2
def flagDropped : Nat := 3
def flagCrc : Nat := 4
def flagUnsettled : Nat := 5
def flagUncal : Nat := 6
def flagClamp : Nat := 7
def flagDegraded : Nat := 8
def flagThrottled : Nat := 9
def flagFreeRun : Nat := 10
def flagRnr : Nat := 11

/-- A region flag is set. -/
def FrameTile.flag (f : FrameTile) (b : Nat) : FrameTile := { f with flags := f.flags ||| BitVec.ofNat 16 (2 ^ b) }

/-- A region flag is set where a condition holds. -/
def FrameTile.flagIf (f : FrameTile) (c : Bool) (b : Nat) : FrameTile := if c then f.flag b else f

def FrameTile.has (f : FrameTile) (b : Nat) : Bool := f.flags.getLsbD b

/-- The FLAGS field of a tile block (R235): VALID is set when no bit from [1] to [11] is. -/
def FrameTile.flagWord (f : FrameTile) : Nat :=
  if !f.enabled then 0
  else
    let v := f.flags.toNat % 4096 / 2 * 2
    v + if v = 0 then 1 else 0

/-- What a frame holds for a tile that it does not read. -/
def FrameTile.idle : FrameTile :=
  { enabled := false, flags := 0, late := 0, missing := [], arrived := [], entered := [], out := [], dropFrom := none, crcRows := []
    rows := [], peer := [], avg := false, filt := [], marks := 0, lo := 0, hi := 0, w := 0, tsNow := 0, conf := 0, moving := false
    refSum := 0, refCnt := 0, own := true, sentRows := 0, recordSent := false, block := none, badCpr := [], badDpr := [] }

def Frame.tile (f : Frame) (t : Tile) : FrameTile := f.tiles.getD t.val .idle

def Frame.modTile (f : Frame) (t : Tile) (g : FrameTile → FrameTile) : Frame := { f with tiles := f.tiles.modify t.val g }

/-- The tile block of Table 7.10. SETS, W and TS_NOW are those of the frame, and 0 for a tile that is not calibrated (R235). A block
of the peer that this device drops is no longer VALID. -/
def FrameTile.blockBytes (f : FrameTile) : Bytes :=
  if f.enabled then
    match f.block with
    | some b =>
      leBytes 2 (if f.has flagDropped then leAt b 0 2 / 2 * 2 ||| 2 ^ flagDropped else leAt b 0 2) ++ sliceB 2 10 b
    | none =>
      let cal (n : Nat) : Nat := if f.has flagUncal then 0 else n
      leBytes 2 f.flagWord ++ leBytes 1 (cal (f.lo + 16 * f.hi)) ++ leBytes 1 (f.conf + if f.moving then 16 else 0)
        ++ leBytes 2 (cal f.w) ++ leBytes 2 (cal (unsigned 16 f.tsNow)) ++ leBytes 2 f.late ++ leBytes 2 f.missing.length
  else List.replicate 12 0

/-- FRAME_FLAGS (Table 7.9). -/
def Frame.flagByte (f : Frame) : Nat := maskOf [f.accepted, f.d2, f.paired, f.lead, f.hold, f.tfStopped]

/-- The tiles of a frame as a mask. -/
def Frame.tileMask (f : Frame) : Nat := maskOf (f.tiles.map (·.enabled))

/-! Identity (R306). -/

def identityKey : Bytes := Config.hkdf384 Config.rootSecret [] (ascii "KL9630 ID") 48
def identityPublic : Bytes := Config.p384Public identityKey
def devId : Bytes := padTo 16 (Config.sha384 identityPublic)

/-- SHA-384 as 48 bytes. -/
def sha (b : Bytes) : Bytes := padTo 48 (Config.sha384 b)

/-- Signatures have been verified, whatever the outcome (Table 14.1, log 17). -/
def State.verified (s : State) (n : Nat) : State := s.perfEvent 14 0x13 n

/-- An identity signature over a SHA-384 digest, with the next draw of the random source. -/
def State.signIdentity (s : State) (digest : Bytes) : Bytes × State :=
  (padTo 96 (Config.ecdsaSign identityKey digest s.sec.draws),
    ({ s with sec := { s.sec with draws := s.sec.draws + 1 } } : State).perfEvent 14 0x12)

/-! Chains and seals (R315, R316). -/

/-- h_0 of a chain. -/
def Chain.start (x : Ctx) (kind frame : Nat) : Chain :=
  let h := sha (ascii "KSC1" ++ devId ++ leBytes 1 x ++ leBytes 1 kind ++ leBytes 6 frame)
  { prev := h, head := h, first := frame, last := frame, count := 0 }

/-- A chain with one more element. -/
def Chain.add (c : Chain) (e : Bytes) (frame : Nat) : Chain :=
  { c with head := sha (c.head ++ e), first := if c.count = 0 then frame else c.first, last := frame, count := c.count + 1 }

/-- A chain after a seal. -/
def Chain.sealed (c : Chain) : Chain := { c with prev := c.head, count := 0 }

/-- A seal record (Table 10.11). -/
def State.sealRecord (s : State) (x : Ctx) (kind : Nat) (c : Chain) : Bytes × State :=
  let b := ascii "KSR1" ++ leBytes 1 x ++ leBytes 1 kind ++ [0, 0] ++ leBytes 6 c.first ++ leBytes 6 c.last
    ++ leBytes 4 c.count ++ leBytes 8 s.time ++ padTo 48 c.head ++ padTo 48 c.prev ++ devId ++ List.replicate 16 0
  let r := s.signIdentity (sha b)
  (b ++ r.1, r.2)

/-- The stream of a context's machine-vision delivery (kind 0) or of a port (kind 1 or 2). -/
def State.stream (s : State) (x : Ctx) (kind : Nat) : Stream :=
  if kind = 0 then (s.ctx x).mv else (s.outs.getD (kind - 1) .reset).stream

def State.modStream (s : State) (x : Ctx) (kind : Nat) (f : Stream → Stream) : State :=
  if kind = 0 then s.modCtx x fun c => { c with mv := f c.mv }
  else { s with outs := s.outs.modify (kind - 1) fun p => { p with stream := f p.stream } }

/-- CSI-2 data types (Table 7.5). The two short packets carry the codes of the CSI-2 specification (log 112). -/
def csiFrameStart : Nat := 0x00
def csiFrameEnd : Nat := 0x01
def csiEmbedded : Nat := 0x12
def csiYuv420 : Nat := 0x18
def csiYuv422 : Nat := 0x1E
def csiRgb888 : Nat := 0x24

/-- The chain is sealed (R316): for DMA into the next entry of the seal log, with SEAL_READY; for a port as an embedded
data line on virtual channel 1. A chain without new elements is not sealed. -/
def State.sealNow (s : State) (x : Ctx) (kind : Nat) : State :=
  match (s.stream x kind).chain with
  | none => s
  | some c =>
    if c.count = 0 then s
    else
      let r := s.sealRecord x kind c
      let s := r.2.modStream x kind fun m => { m with chain := some c.sealed }
      if kind = 0 then
        let n := (s.ctx x).sealNext
        let s := (s.writeMem (sealAddr x + 256 * n) r.1).modCtx x fun k => { k with sealNext := (n + 1) % 256 }
        s.devEvent 0x0A02 (leBytes 1 kind ++ leBytes 1 n ++ leBytes 6 c.last)
      else { s with out := s.out ++ [.port (if kind = 1 then 0 else 1) 1 csiEmbedded r.1] }

/-- A frame is the last one of a stream that stops: fixed at the tick at which the stop took effect, or the latest frame once the
stop has been fetched and no tick has come since (R281, R316). -/
def State.lastOf (s : State) (m : Stream) (frame : Nat) : Bool :=
  (m.draining && m.lastFrame == frame) || (m.stopping && frame == s.tick.frameNum)

/-- An element joins a chain; the seal follows after SEC_SEAL_N elements, or when the stopped stream's last frame has
been added. -/
def State.chainAdd (s : State) (x : Ctx) (kind : Nat) (e : Bytes) (frame : Nat) : State :=
  match (s.stream x kind).chain with
  | none => s
  | some c =>
    let c := c.add e frame
    let s := s.modStream x kind fun m => { m with chain := some c }
    let m := s.stream x kind
    if s.par .secSealN x ≤ c.count || s.lastOf m frame then s.sealNow x kind
    else s

/-! Failed frames (R283). -/

/-- The owner context of a port (R281). -/
def State.portOwner (s : State) (p : Nat) : Ctx := ⟨s.parField .outPortCfg p 8 6 % 8, Nat.mod_lt _ (by decide)⟩

/-- The detail of FRAME_FAILED (Table 9.16). -/
def Frame.failDetail (f : Frame) (cause : Nat) : Bytes :=
  padTo 40 (leBytes 6 f.num ++ leBytes 1 cause ++ leBytes 1 f.tileMask ++ leBytes 8 f.ts)

/-- The contexts that a frame still owes a record: those whose delivery has not ended, and those whose only streams were ports,
while a port still owes them the frame (R283, R284). -/
def Frame.owed (f : Frame) : List Ctx :=
  allCtx.filter fun x =>
    (f.deliveries.any fun d => d.ctx == x && !d.done)
      || (!(f.deliveries.any fun d => d.ctx == x) && (f.ports.zip f.portsDone).any fun p => p.1 == some x && !p.2)

/-- A set returns to free if it was filling (R283). -/
def State.freeSet (s : State) (x : Ctx) (n : Nat) : State :=
  s.modCtx x fun c => { c with sets := c.sets.modify n fun b => if b.state = .filling then { b with state := .free } else b }

/-- A frame gets its failed-frame record in one context: the event, the free set, the element on the DMA chain. -/
def State.failFor (s : State) (f : Frame) (cause : Nat) (x : Ctx) : State :=
  let s := s.eventTo x 0x0101 (f.failDetail cause)
  match f.deliveries.find? fun d => d.ctx == x && !d.done with
  | none => s
  | some d =>
    let s := match d.set with
      | some n => s.freeSet x n
      | none => s
    s.chainAdd x 0 (sha (ascii "FAIL" ++ f.failDetail cause)) f.num

/-- A port's chain ends with a frame that the port does not transmit: it is sealed as it stands (R316). -/
def State.sealPortEnd (s : State) (frame : Nat) (p : Nat) (owner : Option Ctx) : State :=
  let m := (s.outs.getD p .reset).stream
  match owner with
  | some x => if s.lastOf m frame then s.sealNow x (p + 1) else s
  | none => s

/-- A frame fails: the nodes that it has in the pipeline are wasted, every context that it owes a record gets the failed-frame record,
and no port transmits it. -/
def State.failFrame (s : State) (f : Frame) (cause : Nat) : State :=
  let s := s.settleFrame f.num
  let s := f.owed.foldl (fun s x => s.failFor f cause x) s
  let s := (List.range 2).foldl (fun s p =>
    if f.portsDone.getD p true then s else s.sealPortEnd f.num p (f.ports.getD p none)) s
  { s with frames := s.frames.filter fun g => g.num != f.num }

/-- Every frame in flight fails, oldest first. -/
def State.failFrames (s : State) (cause : Nat) : State := s.frames.foldl (fun s f => s.failFrame f cause) s

/-! Rows in the tap buffers (R48, R90, R95, R98). -/

/-- The instant at which sample i of a row converts, in units of 0.5 ps: ADC_SPHASE after its TCLK edge (R90), and at an odd edge of an
interleaved pair moved by the skew trim (R95). -/
def SlotRow.instant (r : SlotRow) (i : Nat) : Int :=
  let j := i % max 1 r.per
  let skew := if j % 2 = 1 then r.skew.getD (i / max 1 r.per) 0 else 0
  ((2000 * r.start + j * 20000000 / max 1 r.rate + 200 * r.phase : Nat) : Int) + skew

/-- Sample i of a row has not converted at an instant. -/
def SlotRow.ahead (r : SlotRow) (now : Time) (i : Nat) : Bool := decide (((2000 * now : Nat) : Int) ≤ r.instant i)

/-- The marked samples of a row (R98). -/
def SlotRow.marked (r : SlotRow) : Nat := (r.words.filter fun w => 16384 ≤ w).length

/-- A row with marked samples counts once in ADC_RNR_CNT, and the samples in their counter unit (R98, Table 14.1). -/
def State.countMarked (s : State) (r : SlotRow) : State :=
  if r.marked = 0 then s else (s.bump .adcRnrCnt).perfEvent 1 0x11 r.marked

/-- The samples of a row that have converted. -/
def SlotRow.converted (r : SlotRow) (now : Time) : SlotRow :=
  { r with words := (r.words.zipIdx.filter fun e => !r.ahead now e.2).map (·.1) }

/-- The rows in their slots end with the samples that have converted, and are counted where some of those are marked (R98). -/
def State.dropSampling (s : State) : State :=
  let rows := s.seq.sampling
  rows.foldl (fun s r => s.countMarked (r.converted s.time)) { s with seq := { s.seq with sampling := [] } }

/-! The stop of the streams (R282). -/

/-- A stream that a fault stops: it is not started, and a pending start or stop is gone with the command that asked for it. -/
def Stream.fault (m : Stream) : Stream := { m with started := false, starting := false, stopping := false, draining := false }

/-- A command that waits for a tick or a frame (R282). -/
def waitsForTick (w : Wait) : Bool :=
  match w with
  | .commitDue | .commitNv _ _ | .commitApply _ _ | .streams _ _ | .stopping _ _ | .activation | .fly _ _ _ _ _ | .flyClear _
  | .pairTick _ => true
  | _ => false

/-- A command of an import session that ends with it (R191): a CHUNK or END that has not started, or an END whose commit runs. -/
def endsWithSession (c : Cmd) : Bool :=
  (c.wait == .notStarted && (c.opcode == 0x3002 || c.opcode == 0x3003))
    || (match c.wait with | .calNv _ => true | _ => false)

/-- The import session is cancelled (R191): its owner is told, and its other commands in flight complete ABORTED. -/
def State.cancelSession (s : State) (cause : Nat) : State :=
  match s.session with
  | none => s
  | some k =>
    let s := (({ s with session := none } : State).endBundle Status.aborted.code).ctxEvent k.owner 0x0700 (leBytes 1 cause)
    ((s.ctx k.owner).inflight.filter endsWithSession).foldl
      (fun s c => s.complete k.owner c .aborted 0 (c.wait != .notStarted)) s

/-- An activation is abandoned (R193): END completes FAILED_FAULT, and the session is cancelled. One whose identity is still being
committed goes on; a LEAD whose own identity is committed has begun, and waits for its PARTNER only. -/
def State.abandonActivation (s : State) : State :=
  let goesOn := match s.act with
    | .none => true
    | .committing => !s.pair.ownBundle
    | _ => false
  if goesOn then s
  else
    let s := ({ s with act := .none, pair := { s.pair with ownBundle := false } } : State).completeWhere fun _ c =>
      match c.wait with
      | .activation | .calNv _ => some (.failedFault, 0)
      | _ => none
    s.cancelSession 7

/-- Writes that wait for the NV commit buffer leave its queue with the commands that own them (R276). -/
def State.dropQueued (s : State) (p : Wait → Bool) : State :=
  let gone (o : Ctx × Nat) : Bool := (s.ctx o.1).inflight.any fun c => c.tag % 2048 == o.2 && p c.wait
  { s with nv := { s.nv with waiting := s.nv.waiting.filter fun g => !(g.owner.map gone).getD false } }

/-- A raw capture loses its frame; a stop that waited for that frame takes effect (R249). -/
def State.loseCapture (s : State) : State :=
  if s.aux.capture.isSome && s.aux.stopReq then
    ({ s with aux := { s.aux with op := 0, cause := 1, stopReq := false, capture := none } } : State).devEvent 0x0802
      (leBytes 1 s.aux.done ++ [1])
  else { s with aux := { s.aux with capture := none } }

/-- A fault stops the streams: frames in flight fail with a cause, ports go to LP-11, and waiting commands complete
FAILED_FAULT. A raw capture loses its frame (R249). -/
def State.faultStreams (s : State) (cause : Nat) : State :=
  let s := s.failFrames cause
  let s := allCtx.foldl (fun s x => if (s.ctx x).mv.stopping then s.sealNow x 0 else s) s
  let s := (List.range 2).foldl (fun s p =>
    if (s.outs.getD p .reset).stream.stopping then s.sealNow (s.portOwner p) (p + 1) else s) s
  let quiet (c : Context) : Context := { c with mv := c.mv.fault }
  let idle (p : OutPort) : OutPort :=
    { p with stream := p.stream.fault, sending := none, state := if p.state = 2 then 1 else p.state }
  let s : State := { s with ctxs := s.ctxs.map quiet, outs := s.outs.map idle }
  let s := s.dropSampling
  let s : State := { s with seq := { s.seq with frame := none, cdie := none } }
  let s := s.loseCapture
  ((s.dropQueued fun w => w matches .commitNv none _).completeWhere fun _ c =>
    if waitsForTick c.wait then some (.failedFault, 0) else none).abandonActivation

end Sys2Proof.Machine
end

