-- ==== Sys2Proof/Machine/Geometry.lean ====
section
/-!
DEFINITION. The geometry of tiles and mosaic under the active configuration (R21, R23, R53, R60, R76), the pipeline latency
L_p (R116, R216), the period budget (R35, R36), and the CRCs of the guyline, the KL-7410 format and the NV store.
-/
namespace Sys2Proof.Machine

def State.isDigital (s : State) (t : Nat) : Bool := s.par .tileKind t == 1
def State.hdr (s : State) (t : Nat) : Bool := s.par .hdrEn t == 1
def State.windowed (s : State) (t : Nat) : Bool := s.par .winEn t == 1
def State.spectral (s : State) (t : Nat) : Bool := s.par .specEn t == 1

/-- Columns of a row: active columns, then blind and dark columns (R53) or reference columns (R76). -/
def State.rowCols (s : State) (t : Nat) : Nat :=
  s.par .actCols t + if s.isDigital t then s.par .digRefCols t else 32

/-- The first row f that a tile reads (R60). -/
def State.firstRow (s : State) (t : Nat) : Nat := if s.windowed t then s.par .winStart t else 0

/-- H_t, the rows that a tile reads in a frame (R60). -/
def State.tileRows (s : State) (t : Nat) : Nat :=
  if s.windowed t then s.par .winRows t else s.par .actRows t + s.par .refRows t

/-- The active rows among them, which is the tile's height in the mosaic (R66). -/
def State.mosaicRows (s : State) (t : Nat) : Nat := if s.windowed t then s.par .winRows t else s.par .actRows t

/-- w, the width of a sample in bits (R120): 14 for an analog tile, b for a digital one. -/
def State.sampleBits (s : State) (t : Nat) : Nat := if s.isDigital t then s.parField .digFmt t 4 0 else 14

/-- Words per line of a digital tile (R76). -/
def State.lineWords (s : State) (t : Nat) : Nat :=
  (s.par .actCols t + s.par .digRefCols t) * (if s.hdr t then 2 else 1) + s.parField .digFmt t 6 6

/-- The enabled tiles. -/
def State.enabled (s : State) : List Tile := allTiles.filter fun t => s.tileOn t

/-- H, the largest H_t of an enabled tile (R36). -/
def State.frameRows (s : State) : Nat := (s.enabled.map fun t => s.tileRows t.val).foldl max 0

/-- MOSAIC_W and MOSAIC_H of the configuration (R21). -/
def State.mosaicWidth (s : State) : Nat := (s.enabled.map fun (t : Tile) => s.par .tileX t + s.par .actCols t).foldl max 0
def State.mosaicHeight (s : State) : Nat := (s.enabled.map fun (t : Tile) => s.par .tileY t + s.mosaicRows t).foldl max 0

/-- The mosaic column of a tile's column, and the mosaic row of its active row i (R23). -/
def State.placeCol (s : State) (t c : Nat) : Nat :=
  s.par .tileX t + if s.parBit .tileFlip t 0 then s.par .actCols t - 1 - c else c
def State.placeRow (s : State) (t i : Nat) : Nat :=
  s.par .tileY t + if s.parBit .tileFlip t 1 then s.mosaicRows t - 1 - i else i

/-- The tile's active row that lies in mosaic row y, and whether there is one. -/
def State.rowIn (s : State) (t y : Nat) : Option Nat :=
  let y0 := s.par .tileY t
  if y0 ≤ y && y < y0 + s.mosaicRows t then
    some (if s.parBit .tileFlip t 1 then s.mosaicRows t - 1 - (y - y0) else y - y0)
  else none

/-- A stage switch of PIPE_STAGE_EN (Table 4.1). -/
def State.stageOn (s : State) (t b : Nat) : Bool := s.parBit .pipeStageEn t b

/-- The sum of the stage contributions of a tile to L_p (Table 4.1, R216). -/
def State.tileLatency (s : State) (t : Nat) : Nat :=
  1 + (if (List.range 4).any fun i => s.stageOn t (3 + i) then 1 else 0)
    + (if s.stageOn t 7 || s.stageOn t 9 then (if s.spectral t then 4 else 2) else 0)
    + (if s.spectral t && s.stageOn t 10 then 3 else 0)
    + 1 + (if s.parBit .filtEn t 1 then 1 else 0) + 1

/-- L_p (R116); 0 while no tile is enabled (Table 1.4). In PAIRED it includes 2 rows for the exchange (R332). -/
def State.latency (s : State) : Nat :=
  if s.enabled.isEmpty then 0
  else (s.enabled.map fun t => s.tileLatency t.val).foldl max 0 + if s.pair.mode = .paired then 2 else 0

/-- T_close (R36), ns. -/
def tClose : Nat := 60000

/-- P_budget for D = 1 (R35), ns. -/
def State.basePeriod (s : State) : Nat :=
  10 * (if s.par .tickSrc = 0 then s.par .tickPeriod else s.par .fsyncMinPeriod)

/-- P_budget (R35), ns. -/
def State.pBudget (s : State) : Nat := s.basePeriod * if s.tick.d2 then 2 else 1

/-- The margin of R36, ns. -/
def State.budgetMargin (s : State) : Int :=
  (s.basePeriod : Int) - ((s.frameRows * 10000 + s.latency * 3300 + tClose : Nat) : Int)

/-- The published results of a configuration (R21, R36, R37). -/
def State.publishGeometry (s : State) : State :=
  { s with tick := { s.tick with latRows := s.latency, margin := (s.budgetMargin / 10).toNat, mosaicW := s.mosaicWidth
                                 mosaicH := s.mosaicHeight } }

/-- The cut time of a frame with tick timestamp ts (R38). -/
def State.cutOf (s : State) (ts : Time) : Time := ts + s.pBudget - tClose

/-- The device drives and reads tile t: alone, or while its TOWN is high (R323). A SOLE device keeps its tiles while it joins
(Table 11.5). -/
def State.owns (s : State) (t : Tile) : Bool :=
  match s.pair.mode with
  | .paired | .sole | .joining => s.pair.own.getLsbD t.val
  | .single => true
  | .detached => false

end Sys2Proof.Machine
end

