-- ==== Sys2Proof/Machine/Class0.lean ====
section
/-!
DEFINITION. Class-0 events and their sideband words (R50, Table 1.7).
-/
namespace Sys2Proof.Machine

/-! Class-0 events (R50, Tables 1.7 and 1.9). -/

/-- The sideband word of an event: START 0, CODE, DETAIL, SEQ, CHECK, STOP 1. -/
def sidebandWord (num code detail : Nat) : BitVec 20 :=
  let v := code % 16 * 2 + detail % 64 * 32 + num % 16 * 2048
  BitVec.ofNat 20 (v + 32768 * crc4 (bitsLsb 14 (v / 2)) + 524288)

/-- The lane message of an event: CODE, DETAIL, the event number and the cause; the widths are the model's (log 107). -/
def class0Bytes (num code detail cause : Nat) : Bytes :=
  leBytes 1 code ++ leBytes 1 detail ++ leBytes 2 num ++ leBytes 1 cause

/-- The direction of the lanes that carry a wire's events. -/
def laneOf : Wire → LinkDir
  | .fc => .fc
  | .cf => .cf

/-- An event is raised on a wire: its word waits for the wire, its message for the lanes, and the other die acts on the first
copy that arrives. -/
def State.raise0 (s : State) (w : Wire) (code detail cause : Nat) : State :=
  let k := s.links
  let n := match w with | .fc => k.numFC | .cf => k.numCF
  let up := (n + 1) % 65536
  let k := { k with raised := k.raised ++ [(w, n, code, detail, cause)] }
  let s : State := match w with
    | .fc => ({ s with links := { k with numFC := up, wordsFC := k.wordsFC ++ [sidebandWord n code detail] } } : State).perfEvent 3 0x14
    | .cf => { s with links := { k with numCF := up, wordsCF := k.wordsCF ++ [sidebandWord n code detail] } }
  s.sendMessage (laneOf w) 0 (class0Bytes n code detail cause)

end Sys2Proof.Machine
end

