-- ==== Sys2Proof/Machine/TileSeq.lean ====
section
/-!
DEFINITION. The tile sequencer and the bias outputs (chapter 2), the analog front end, converters and trim of the video
path (R86 to R100): slots, pointer resets, lead slots, enable and shutdown of a tile.
-/
namespace Sys2Proof.Machine

/-! Frames in flight. -/

/-- The frame of the latest numbered tick, while its record is open. -/
def State.reading (s : State) : Option Frame :=
  match s.seq.frame with
  | some (n, _) => s.frames.find? fun f => f.num == n && f.body.isNone
  | none => none

/-- Tile t of the frame being read is changed. -/
def State.modReading (s : State) (t : Tile) (g : FrameTile → FrameTile) : State :=
  match s.reading with
  | some f => s.modFrame f.num fun f => f.modTile t g
  | none => s

/-- A missing active row of an owned tile is exchanged as a held one (R83, R333); rows of a STALE tile are not sent. -/
def State.sendHeld (s : State) (frame : Nat) (t : Tile) (r : Nat) : State :=
  match s.frameOf frame with
  | some f =>
    let k := f.tile t
    if s.pair.mode == .paired && f.paired && k.own && !k.has flagStale && r < s.mosaicRows t then
      s.sendRow frame t (s.firstRow t + r) (List.replicate (s.par .actCols t) heldWord)
    else s
  | none => s

/-- A row of a tile is missing (R83): listed, counted, and LATE_ROWS set. It takes no part in processing. -/
def State.missRow (s : State) (frame : Nat) (t : Tile) (r : Nat) : State :=
  let s := (s.modFrame frame fun f => f.modTile t fun k =>
    { (k.flag flagLate) with missing := k.missing ++ [r] }).bump .lateRowCnt t
  s.sendHeld frame t r

/-! Bias outputs (R67 to R71). -/

def TileSt.bias (t : TileSt) : BiasOut → Bias
  | .vdet => t.vdet
  | .vskim => t.vskim
  | .vguard => t.vguard

def TileSt.modBias (t : TileSt) (o : BiasOut) (f : Bias → Bias) : TileSt :=
  match o with
  | .vdet => { t with vdet := f t.vdet }
  | .vskim => { t with vskim := f t.vskim }
  | .vguard => { t with vguard := f t.vguard }

def biasIndex : BiasOut → Nat
  | .vdet => 0
  | .vskim => 1
  | .vguard => 2

def biasParam : BiasOut → Param
  | .vdet => .vdetCode
  | .vskim => .vskimCode
  | .vguard => .vguardCode

/-- The voltage of a code in units of 1/65,536 µV (Table 2.6). -/
def biasLevel (o : BiasOut) (code : Nat) : Nat := code * if o = .vdet then 4000000 else 3300000

/-- The target that the code register names. -/
def State.biasTarget (s : State) (t : Tile) (o : BiasOut) : Nat := biasLevel o (s.par (biasParam o) t)

/-- An output moves towards a target by at most a step (R67, R68). -/
def moveTo (target step v : Nat) : Nat :=
  if v < target then min target (v + step) else max target (v - step)

/-- One update of an output: it moves, and the moment at which it reaches its target is kept. -/
def Bias.move (b : Bias) (target step : Nat) (now : Time) : Bias :=
  let l := moveTo target step b.level
  { b with level := l, arrived := if l = target then (if b.arrived.isSome then b.arrived else some now) else none }

/-- One DAC update of a tile (R67, R72, R73). -/
def State.dacTile (s : State) (t : Tile) (k : TileSt) : TileSt :=
  let slew := s.par .biasSlew t * 655360
  if k.ramp = 0 then
    if k.mode = .biasing || k.mode = .ready then
      let k := k.modBias .vguard fun b => b.move (s.biasTarget t .vguard) slew s.time
      if k.mode = .biasing && k.vguard.arrived.isNone then k
      else
        (k.modBias .vdet fun b => b.move (s.biasTarget t .vdet) slew s.time).modBias .vskim fun b =>
          b.move (s.biasTarget t .vskim) slew s.time
    else k
  else
    let step := if k.ramp = 2 then 100 * 655360 else slew
    if k.vdet.level = 0 && k.vskim.level = 0 then
      let k := k.modBias .vguard fun b => { b with level := moveTo 0 step b.level }
      if k.vguard.level = 0 && k.zeroAt.isNone then { k with zeroAt := some s.time } else k
    else
      (k.modBias .vdet fun b => { b with level := moveTo 0 step b.level }).modBias .vskim fun b =>
        { b with level := moveTo 0 step b.level }

/-- The row from which a taken-over tile is read again, if it is (R340). -/
def State.rewindOf (s : State) (t : Tile) : Option (Nat × Nat) :=
  match s.pair.rewind with
  | some (s0, us) => if us.getD t.val 65535 < s.tileRows t then some (s0, us.getD t.val 65535) else none
  | none => none

/-- The slots of a tile's read-out in the present frame: H_t, or up to the end of the rows read again (R60, R340). -/
def State.slotsOf (s : State) (t : Tile) : Nat :=
  match s.rewindOf t with
  | some (s0, u) => s0 + 5 + (s.tileRows t - u)
  | none => s.tileRows t

/-- The delay of every scheduled edge behind its place on the grid: 40 ns with FSYNC (R428). -/
def State.edgeDelay (s : State) : Nat := if s.par .tickSrc = 1 then 40 else 0

/-- The start of slot r of a frame with tick timestamp ts: on the grid of the tick, which on a PARTNER falls 2.00 µs after the
timestamp (R60, R329, R428). -/
def State.slotAt (s : State) (ts : Time) (r : Nat) : Time := ts + s.seq.shift + s.edgeDelay + r * 10000

/-- The end of the last slot of a tile lies ahead (R60). -/
def State.inReadout (s : State) (t : Tile) : Bool :=
  match s.seq.frame with
  | some (_, ts) => s.time < s.slotAt ts (s.slotsOf t)
  | none => false

/-- A BIAS_SETTLED bit of an enabled tile clears: the frame being read carries BIAS_UNSETTLED while its slots last, and
so does the next one unless the bit sets before its lead slot (R70). -/
def State.unsettle (s : State) (t : Tile) : State :=
  let s := s.modTile t fun k => { k with unsettled := true }
  if s.inReadout t then s.modReading t fun k => k.flag flagUnsettled else s

/-- A write of a bias code (R68, R69, R72). -/
def State.writeBias (s : State) (t : Tile) (o : BiasOut) (code : Nat) : State :=
  let s := s.setPar (biasParam o) t code
  if s.tileOn t then
    (s.modTile t fun k => k.modBias o fun b => { b with settled := false, arrived := none }).unsettle t
  else s

/-! Enable and shutdown (R72, R73). -/

/-- A tile is shut down: control outputs low, the outputs ramp to 0 V. A ramp that runs already goes on, at the faster rate of the
two (R73). TILE_STATE keeps its value until TEN falls (log 128). -/
def TileSt.shut (k : TileSt) (ramp : Nat) : TileSt :=
  let k := { k with control := false, woken := false, wave := .low }
  if k.ten then
    { k with ramp := max k.ramp ramp, zeroAt := if k.ramp = 0 then none else k.zeroAt, integ := none, holds := none }
  else k

/-- A tile leaves its enabled state (R73). -/
def State.disableTile (s : State) (t : Tile) (ramp : Nat) : State := s.modTile t fun k => k.shut ramp

/-- A tile starts the sequence of Table 2.7, but not during a thermal shutdown, whose resume starts it (R365, R366); FAULT ends and the
BIAS_SETTLED bits clear in either case (R71, R72). Its fault bits clear (log 14). Outputs that still ramp down from a shutdown stay where
they are until TILE_WAKE (log 103). -/
def State.enableTile (s : State) (t : Tile) : State :=
  let start (k : TileSt) : TileSt :=
    { k with
      mode := .waking, ten := true, control := false, woken := false, wakeAt := s.time, wave := .low, ramp := 0, zeroAt := none
      faulted := false
      vdet := { k.vdet with settled := false, arrived := none, fault := false }
      vskim := { k.vskim with settled := false, arrived := none, fault := false }
      vguard := { k.vguard with settled := false, arrived := none, fault := false }
      firstMissing := !s.isDigital t, unsettled := true }
  if s.thm.shutdown then
    s.modTile t fun k =>
      { k with
        faulted := false, mode := if k.mode = .fault then .off else k.mode, unsettled := true
        vdet := { k.vdet with settled := false, arrived := none }, vskim := { k.vskim with settled := false, arrived := none }
        vguard := { k.vguard with settled := false, arrived := none } }
  else s.modTile t start

/-- Tiles are shut down for a thermal shutdown or a coast: 10 mV/µs whatever BIAS_SLEW is (R73, R356, R365). -/
def State.shutTiles (s : State) : State := { s with tiles := s.tiles.map fun k => k.shut 2 }

/-! The video path (R86 to R100). -/

/-- The tap input and the converter channel of sample i of a row in column order, and the tap that counts its clips. -/
structure TapOf where
  tap : Nat
  channel : Nat
deriving DecidableEq, Repr

/-- Taps and channels of a row's samples (R54, R95): n is the index in the row, short and long reads interleaved. -/
def State.tapOf (s : State) (t : Nat) (n : Nat) : TapOf :=
  let reads := if s.hdr t then 2 else 1
  if s.par .tapMode t = 0 then
    let per := s.rowCols t / 8 * reads
    let k := n / max per 1
    { tap := 8 * t + k, channel := 8 * t + k }
  else
    let per := s.rowCols t / 4 * reads
    let m := n / max per 1
    let j := n % max per 1
    let ilv := s.parBit .ilvEn 0 (4 * t + m)
    { tap := 8 * t + 2 * m, channel := 8 * t + 2 * m + if ilv && j % 2 == 1 then 1 else 0 }

/-- The raw code of a tap voltage in µV under gain code g and offset code o (R87). -/
def rawCode (g o v : Nat) : Nat :=
  let d : Int := (2 ^ g : Nat) * ((v : Int) - (200000 + 350 * o : Nat))
  (clampI 0 16383 ((16384 * d) / 1000000)).toNat

/-- The factory trim of a channel (R92). -/
def trimCode (ofs : Int) (gain raw : Nat) : Nat :=
  (clampI 0 16383 (rnd ((16 * (raw : Int) - ofs) * gain) (2 ^ 18))).toNat

/-- ADC_TRIM_OFS and ADC_TRIM_GAIN[15:0] of a channel, as the F-die has received them from SC: identity where the OTP row fails its
check value (R93). -/
def State.trimOf (s : State) (n : Nat) : Int × Nat :=
  match s.hk.trim.getD n (0, 0x4000, true) with
  | (o, g, true) => (o, g)
  | (_, _, false) => (0, 0x4000)

/-- The trimmed code of one sample. -/
def State.sampleCode (s : State) (t n v : Nat) : Nat :=
  let k := s.tapOf t n
  let tr := s.trimOf k.channel
  trimCode tr.1 tr.2 (rawCode (s.par .afeGain k.tap) (s.par .afeOfs k.tap) v)

/-- Trimmed codes at 0 or 16,383 are counted per tap (R100). -/
def State.countClips (s : State) (t : Nat) (codes : List Nat) : State :=
  let taps := codes.mapIdx fun n c => if c = 0 || c = 16383 then some (s.tapOf t n).tap else none
  let s := s.perfEvent 1 0x12 (taps.filter (·.isSome)).length
  taps.foldl (fun s k => match k with | some n => s.bump .afeClipCnt n | none => s) s

/-- The sample words of a row (R86): the trimmed codes, marked where READY is 0 as the slot starts; a change within the slot
marks them anew (R98). -/
def State.convertRow (s : State) (t : Tile) (volts : List Nat) : List Nat × State :=
  let n := s.rowCols t * if s.hdr t then 2 else 1
  let codes := (List.range n).map fun i => s.sampleCode t i (volts.getD i 0)
  let mark := if s.hk.refReady then 0 else 16384
  (codes.map (· + mark), (s.countClips t codes).perfEvent 1 0x10 n)

/-! The control outputs (R55, R58 to R64, R75). -/

/-- A single pulse. -/
def Pulses.one (first width : Nat) : Pulses := { first, width, period := 0, count := 1 }

/-- The output is high at an instant. -/
def Pulses.highAt (p : Pulses) (at_ : Time) : Bool :=
  (List.range p.count).any fun i => p.first + i * p.period ≤ at_ && at_ < p.first + i * p.period + p.width

/-- An integration window is open at an instant. -/
def Wave.integrating (w : Wave) (at_ : Time) : Bool := w.tintL.highAt at_ || w.tintS.highAt at_

/-- TINT_L and TINT_S of a slot that starts at an instant (R64): the short window is centred in the long one, and low without
HDR. A short window longer than the long one starts ahead of it: the quotient is then a negative floor. -/
def State.windows (s : State) (t : Tile) (w : Wave) (at_ : Time) : Wave :=
  let long := s.par .intLLen t
  let short := s.par .intSLen t
  let first := s.par .intLStart t
  let startS : Int := at_ + 10 * (first + ((long : Int) - short) / 2)
  { w with
    tintL := .one (at_ + 10 * first) (10 * long)
    tintS := if s.hdr t then .one startS.toNat (10 * short) else .low }

/-- Samples per tap of a row, and the TCLK rate in units of 100 kHz (Table 2.2). -/
def State.tapSamples (s : State) (t : Tile) : Nat := s.rowCols t / (if s.par .tapMode t = 0 then 8 else 4) * if s.hdr t then 2 else 1
def State.tclkRate (s : State) (t : Tile) : Nat := 324 * (1 + s.par .tapMode t) * if s.hdr t then 2 else 1

/-- The outputs of an analog tile in slot r (R55, R60, Table 2.4): TROW for 100 ns, the windows of row f + r + 1, and one TCLK
edge for each sample, after which TCLK stays low. -/
def State.analogWave (s : State) (t : Tile) (r : Nat) (at_ : Time) : Wave :=
  let w : Wave := { Wave.low with trow := .one at_ 100, tclkAt := at_, tclkRate := s.tclkRate t, tclkEdges := s.tapSamples t }
  if r + 2 ≤ s.tileRows t then s.windows t w at_ else w

/-- The outputs of a digital tile in slot r (R75): TSYNC for 100 ns at slot 0, TROW for 100 ns and the windows in every slot. -/
def State.digitalWave (s : State) (t : Tile) (r : Nat) (at_ : Time) : Wave :=
  s.windows t { Wave.low with tsync := if r = 0 then .one at_ 100 else .low, trow := .one at_ 100 } at_

/-- The pointer reset and the f skip pulses (R61). -/
def State.resetWave (s : State) (t : Tile) (at_ : Time) : Wave :=
  { Wave.low with
    tsync := .one at_ 100, trow := { first := at_ + 100, width := 10, period := 20, count := s.firstRow t } }

/-- The start of a rewind (R340): TSYNC, and the skip pulses that bring the row pointer to row u of the read-out. -/
def State.rewindWave (s : State) (t : Tile) (at_ : Time) (u : Nat) : Wave :=
  { Wave.low with
    tsync := .one at_ 100, trow := { first := at_ + 100, width := 10, period := 20, count := s.firstRow t + u } }

/-- The lead slot (R62): TSYNC from 40 ns before it to 40 ns after its start, TROW, and the windows of row f. -/
def State.leadWave (s : State) (t : Tile) (at_ : Time) : Wave :=
  s.windows t { Wave.low with tsync := .one (at_ - 40) 80, trow := .one at_ 100 } at_

/-- What a TROW rise does at the tile (Table 2.3): with a window open, the integration is discarded and the holds stay. -/
def TileSt.rowEdge (k : TileSt) (at_ : Time) (row : Nat) : TileSt :=
  { k with holds := if k.wave.integrating at_ then k.holds else k.integ, integ := none, rowPtr := row }

/-! Rows in the tap buffers (R48, R98). -/

/-- READY changes: the samples that convert from now on are marked, or not (R98). -/
def SlotRow.remark (r : SlotRow) (now : Time) (ready : Bool) : SlotRow :=
  { r with words := r.words.mapIdx fun i w => if r.ahead now i then w % 16384 + (if ready then 0 else 16384) else w }

/-- The factory skew of each pair of a tile whose two channels work as one tap (R95). -/
def State.skewOf (s : State) (t : Tile) : List Int :=
  if s.par .tapMode t = 0 then []
  else (List.range 4).map fun m =>
    if s.parBit .ilvEn 0 (4 * t + m) then signed 8 (s.sec.otp.skew.getD t 0 / 256 ^ m) else 0

def State.refChange (s : State) (ready : Bool) : State :=
  { s with seq := { s.seq with sampling := s.seq.sampling.map fun r => r.remark s.time ready } }

/-- A row with marked samples is counted, and flags its tile in the frame being read (R98). -/
def State.noteMarked (s : State) (t : Tile) (r : SlotRow) : State :=
  if r.marked = 0 then s else (s.countMarked r).modReading t fun k => k.flag flagRnr

/-- The row has left its slot: marked samples are noted, and the samples go to the guyline. -/
def State.sampled (s : State) (frame : Nat) (r : SlotRow) : State :=
  match allTiles[r.tile]? with
  | none => s
  | some t => (s.noteMarked t r).sendVideo (.videoRow frame r.tile r.row r.late r.words)

/-- The slot of some rows ends: of those that are chosen. -/
def State.endRows (s : State) (p : SlotRow → Bool) : State :=
  let left : State := { s with seq := { s.seq with sampling := s.seq.sampling.filter fun r => !p r } }
  match s.seq.frame with
  | none => left
  | some (frame, _) => (s.seq.sampling.filter p).foldl (fun s r => s.sampled frame r) left

/-- The slot under way ends. -/
def State.endSlot (s : State) : State := s.endRows fun _ => true

/-! Slots (R60 to R63). -/

/-- Whether the device reads tile t in this frame as an analog tile. -/
def State.readsAnalog (s : State) (t : Tile) : Bool :=
  s.tileOn t && !s.isDigital t && s.owns t && !(s.tile t).faulted

/-- The device drives the control outputs of a tile: in PAIRED those of the peer's tiles as well (R324). -/
def State.drives (s : State) (t : Tile) : Bool :=
  s.tileOn t && (s.owns t || s.pair.mode == .paired) && !(s.tile t).faulted

/-- Control outputs start at the first edge at or after TILE_WAKE (Table 2.7). -/
def TileSt.startControl (k : TileSt) : TileSt := if k.woken then { k with control := true } else k

/-- A slot point of a tile: its control outputs start if TILE_WAKE has passed, and if they run, they make this wave and the
tile answers. -/
def State.slotPoint (s : State) (t : Tile) (w : Wave) (answer : TileSt → TileSt) : State :=
  s.modTile t fun k =>
    let k := k.startControl
    if k.control then { answer k with wave := w } else k

/-- One analog tile in slot r of a frame (R60). A first row that is missing is not converted and counts nothing (log 136). -/
def State.slotTile (s : State) (frame r : Nat) (at_ : Time) (late : Bool) (volts : List Nat) (t : Tile) : State :=
  if !s.drives t || s.isDigital t || s.tileRows t ≤ r then s
  else
    let f := s.firstRow t
    let miss := r = 0 && (s.tile t).firstMissing
    let s := s.slotPoint t (s.analogWave t r at_) fun k =>
      { k.rowEdge at_ (f + r + 1) with integ := if r + 2 ≤ s.tileRows t then some (f + r + 1) else none }
    let s := s.modTile t fun k => { k with firstMissing := false }
    if !s.owns t then s
    else if miss then s.missRow frame t 0
    else
      let s := if late then (s.modReading t fun k => { k.flag flagLate with late := k.late + 1 }).bump .lateRowCnt t else s
      let c := s.convertRow t volts
      let row : SlotRow :=
        { tile := t.val, row := r, late, start := at_, per := s.tapSamples t, rate := s.tclkRate t
          phase := s.par .adcSphase t, skew := s.skewOf t, words := c.1 }
      { c.2 with seq := { c.2.seq with sampling := c.2.seq.sampling ++ [row] } }

/-- A digital tile that has been taken over in the present frame is not driven before slot s_0, and no line counts before it
(R341). -/
def State.heldBack (s : State) (t : Tile) : Bool := s.pair.held.getLsbD t.val && s.time < s.pair.heldTill

/-- One digital tile in slot r (R75, R341). -/
def State.slotDigital (s : State) (r : Nat) (at_ : Time) (t : Tile) : State :=
  if !s.drives t || s.tileRows t ≤ r || s.heldBack t then s
  else s.slotPoint t (s.digitalWave t r at_) id

/-- Slots of the frame: H, and more while a takeover reads rows again (R60, R340). -/
def State.slots (s : State) : Nat :=
  (allTiles.map fun t => if (s.rewindOf t).isSome then s.slotsOf t else 0).foldl max s.frameRows

/-- What slot r does for a tile: its row r, or on a rewound tile the lead slot s_0 + 4 of row u and then row u + (r - s_0 - 5),
late (R60, R340). -/
def State.slotFor (s : State) (frame r : Nat) (at_ : Time) (volts : List Nat) (t : Tile) : State :=
  if s.isDigital t then s.slotDigital r at_ t
  else
    match s.rewindOf t with
    | none => s.slotTile frame r at_ false volts t
    | some (s0, u) =>
      if r < s0 || (s0 < r && r < s0 + 4) then s
      else if r = s0 then s.slotPoint t (s.rewindWave t at_ u) fun k =>
        { k with integ := none, rowPtr := s.firstRow t + u }
      else if r = s0 + 4 then
        let w := s.leadWave t at_
        s.modTile t fun k =>
          { k with
            integ := some (s.firstRow t + u), rowPtr := s.firstRow t + u, firstMissing := false
            wave := if k.control then w else k.wave }
      else s.slotTile frame (u + (r - s0 - 5)) at_ true volts t

/-- The end of a takeover: every rewound row is read (R340, Table 11.12). -/
def State.rewindDone (s : State) (frame : Nat) : State :=
  match s.pair.rewind with
  | none => s
  | some (s0, us) =>
    if s.seq.slot < s.slots then s
    else
      let tiles := allTiles.filter fun t => (s.rewindOf t).isSome
      let k := (tiles.map fun t => s0 + 5 - us.getD t.val 0).foldl max 0
      let mask := maskOf (allTiles.map fun t => (s.rewindOf t).isSome)
      ({ s with pair := { s.pair with rewind := none } } : State).devEvent 0x0C02
        (leBytes 1 mask ++ [0] ++ leBytes 2 k ++ leBytes 6 frame)

/-- SLOT_START (R60): slot r of the frame being read starts. -/
def execSlotStart (t : Time) (taps : List (List Nat)) (s : State) : Host.Outcome State Fault Refusal :=
  let s := s.advance t
  match s.seq.frame with
  | none => .next s
  | some (frame, ts) =>
    let r := s.seq.slot
    if s.slots ≤ r || s.time < s.slotAt ts r then .next s
    else
      let s := s.endSlot
      let s := allTiles.foldl (fun s t => s.slotFor frame r (s.slotAt ts r) (taps.getD t.val []) t) s
      let s := ({ s with seq := { s.seq with slot := r + 1 } } : State).perfEvent 0 0x10
      .next (s.rewindDone frame)

/-- POINTER_RESET (R61): at the end of the tile's last slot, TSYNC for 100 ns and the skip pulses leave the row pointer at
row f. The slots of taller tiles go on. -/
def State.pointerReset (s : State) (t : Tile) (at_ : Time) : State :=
  let s := s.endRows fun r => r.tile == t.val
  let f := s.firstRow t
  let s := s.slotPoint t (s.resetWave t at_) fun k => { k with rowPtr := f, holds := if f = 0 then k.holds else k.integ, integ := none }
  { s with seq := { s.seq with pointers := s.seq.pointers ||| BitVec.ofNat 8 (2 ^ t.val) } }

def execPointerReset (t : Time) (tile : Tile) (s : State) : Host.Outcome State Fault Refusal :=
  let s := s.advance t
  match s.seq.frame with
  | none => .next s
  | some (_, ts) =>
    let at_ := s.slotAt ts (s.slotsOf tile)
    if s.drives tile && !s.isDigital tile && !s.seq.pointers.getLsbD tile.val && at_ ≤ s.time then
      .next (s.pointerReset tile at_)
    else .next s

/-- One tile as a lead slot starts: the watch for a clear BIAS_SETTLED bit starts anew, and on an analog tile row f
integrates under the values in force, so it is no missing row by an earlier change (R62, R63, R70). -/
def State.leadTile (s : State) (at_ : Time) (t : Tile) : State :=
  let s := s.modTile t fun k => { k with unsettled := !k.allSettled }
  if s.drives t && !s.isDigital t then
    (s.slotPoint t (s.leadWave t at_) fun k => { k.rowEdge at_ k.rowPtr with integ := some (s.firstRow t) }).modTile t fun k =>
      { k with firstMissing := false }
  else s

/-- LEAD_SLOT_START (R62, R70): P_budget - 10 µs after the tick, and again every P_budget while no tick comes. With several
lead slots the watch of R70 restarts at each, and a digital tile's at the same instant (log 104). -/
def execLeadSlotStart (t : Time) (s : State) : Host.Outcome State Fault Refusal :=
  let s := s.advance t
  match s.seq.lead with
  | none => .next s
  | some at_ =>
    if s.time < at_ then .next s
    else
      let s := s.enabled.foldl (fun s t => s.leadTile at_ t) s
      .next (({ s with seq := { s.seq with lead := some (at_ + s.pBudget) } } : State).perfEvent 0 0x11)

/-- TILE_WAKE_EXPIRY (Table 2.7, step 2): TILE_WAKE after the enable VGUARD slews, TILE_STATE 2. -/
def execTileWakeExpiry (t : Time) (tile : Tile) (s : State) : Host.Outcome State Fault Refusal :=
  let s := s.advance t
  let k := s.tile tile
  if k.mode = .waking && k.ramp = 0 && k.wakeAt + 1000 * s.par .tileWake tile ≤ s.time then
    .next (s.modTile tile fun k => { k with mode := .biasing, woken := true })
  else .next s

/-- The update period of the bias DACs: 100 ns, four times that while PLL_A coasts (R67, R356). -/
def State.dacPeriod (s : State) : Nat := if s.clk.pllA.isCoasting then 400 else 100

/-- BIAS_DAC_UPDATE (R67): every output moves by one 100 ns step. -/
def execBiasDacUpdate (t : Time) (s : State) : Host.Outcome State Fault Refusal :=
  let s := s.advance t
  let due := match s.seq.dacAt with
    | some a => decide (a + s.dacPeriod ≤ s.time)
    | none => true
  if due then
    .next { s with
      tiles := s.tiles.zipIdx.map fun k => if h : k.2 < 8 then s.dacTile ⟨k.2, h⟩ k.1 else k.1
      seq := { s.seq with dacAt := some s.time } }
  else .next s

/-- BIAS_SETTLE_EXPIRY (R69, Table 2.7 step 4): 50 µs after the output reached its target. -/
def execBiasSettleExpiry (t : Time) (tile : Tile) (o : BiasOut) (s : State) : Host.Outcome State Fault Refusal :=
  let s := s.advance t
  let b := (s.tile tile).bias o
  match b.arrived with
  | some a =>
    if a + 50000 ≤ s.time && s.tileOn tile && (s.tile tile).ramp = 0 then
      let s := s.modTile tile fun k => k.modBias o fun b => { b with settled := true }
      let k := s.tile tile
      if k.allSettled && k.mode = .biasing then
        .next (s.modTile tile fun k => { k with mode := .ready })
      else .next s
    else .next s
  | none => .next s

/-- TEN_OFF_EXPIRY (R73, R356): TEN falls 50 µs after VGUARD reached 0 V, 200 µs while PLL_A coasts. -/
def execTenOffExpiry (t : Time) (tile : Tile) (s : State) : Host.Outcome State Fault Refusal :=
  let s := s.advance t
  let k := s.tile tile
  let due := match k.zeroAt with
    | some z => decide (z + 500 * s.dacPeriod ≤ s.time)
    | none => false
  if k.ramp ≠ 0 && due then
    .next (s.modTile tile fun k =>
      { k with ten := false, ramp := 0, zeroAt := none, mode := if k.faulted then .fault else .off })
  else .next s

/-- BIAS_CODE_WRITE (R68, R69, R72, R331). -/
def execBiasCodeWrite (t : Time) (tile : Tile) (o : BiasOut) (code : BitVec 16) (s : State) :
    Host.Outcome State Fault Refusal :=
  .next ((s.advance t).writeShared ((biasParam o).id tile) code.toNat fun s => s.writeBias tile o code.toNat)

/-- TILE_FAULT (R71): the comparator condition has lasted 1 ms. The tile is shut down, and its region drops from the row
being read on. -/
def execTileFault (t : Time) (tile : Tile) (s : State) : Host.Outcome State Fault Refusal :=
  let s := s.advance t
  let k := s.tile tile
  if s.tileOn tile && !k.faulted && (k.vdet.fault || k.vskim.fault || k.vguard.fault) then
    let s := s.modTile tile fun k => { k.shut 1 with mode := .fault, faulted := true }
    let from_ := s.seq.slot
    let s := s.modReading tile fun k => { k.flag flagDropped with dropFrom := some (match k.dropFrom with
      | some d => min d from_
      | none => from_) }
    .next ((s.fdieEvent 0x0301 (leBytes 1 tile)).perfEvent 0 0x13)
  else .next s

end Sys2Proof.Machine
end

