-- ==== Sys2Proof/Machine/DigitalPort.lean ====
section
/-!
DEFINITION. The digital tile ports (R74 to R84): the frame receiver with the error classes of Table 2.8.
-/
namespace Sys2Proof.Machine

/-- The tile is an enabled digital tile of this device that is not in FAULT. -/
def State.readsDigital (s : State) (t : Tile) : Bool :=
  s.tileOn t && s.isDigital t && (s.owns t || s.pair.mode == .paired || s.pair.raising.getLsbD t.val) && !(s.tile t).faulted

/-- The words of a line in pixel order (R74): with DIG_FMT[7] = 1 the falling-edge word comes first. The last word of an odd number has no
partner and stays where it is (log 151). -/
def swapPairs : List Nat → List Nat
  | a :: b :: r => b :: a :: swapPairs r
  | r => r

/-- The pixel value of a word (R77). -/
def State.pixelValue (s : State) (t w : Nat) : Nat :=
  let b := s.parField .digFmt t 4 0
  if s.parBit .digFmt t 5 then w / 2 ^ (16 - b) else w % 2 ^ b

/-- The bits over which the line CRC runs (R79): each word most significant byte first. -/
def lineBits (words : List Nat) : List Bool := words.flatMap fun w => bitsMsb 16 w

/-- The drop of R78. -/
def State.dropPort (s : State) (t : Tile) : State :=
  let n := (s.tile t).dig.lines
  let s := s.modTile t fun k => { k with dig := { k.dig with dropped := true } }
  if !s.owns t then s
  else
    let s := s.modReading t fun k =>
      { k.flag flagDropped with dropFrom := some (match k.dropFrom with | some d => min d n | none => n) }
    (s.bump .digFramingCnt t).perfEvent 2 0x12

/-- A line arrives whole: row r of the frame, on time, late, or after the record has closed (R80, R82). -/
def State.deliverLine (s : State) (t : Tile) (frame : Nat) (ts : Time) (r : Nat) (words : List Nat) : State :=
  let n := words.length
  let fmt6 := s.parBit .digFmt t 6
  let pix := if fmt6 then words.take (n - 1) else words
  let bad := fmt6 && crc16 (lineBits pix) != words.getD (n - 1) 0
  let s := if bad then
      ((s.bump .digCrcCnt t).modReading t fun k => { k.flag flagCrc with crcRows := k.crcRows ++ [r] }).perfEvent 2 0x13
    else s
  let late := ts + (r + 1 + s.par .digLag t) * 10000 < s.time
  let s := if late then
      ((s.modReading t fun k => { k.flag flagLate with late := k.late + 1 }).bump .lateRowCnt t).perfEvent 2 0x11
    else s
  let s := s.modReading t fun k => { k with arrived := k.arrived ++ [r] }
  s.sendVideo (.videoRow frame t r late pix)

/-- TP_FV_RISE (R74, R78): the frame valid input rises; the measured TP_CLK is kept. -/
def execTpFvRise (t : Time) (tile : Tile) (clk10kHz : Nat) (s : State) : Host.Outcome State Fault Refusal :=
  let s := (s.advance t).modTile tile fun k => { k with dig := { k.dig with clk := clk10kHz % 65536, fv := true } }
  if s.readsDigital tile && s.seq.frame.isSome then
    let d := (s.tile tile).dig
    if d.dropped then .next s
    else if d.seen then .next (s.dropPort tile)
    else .next (s.modTile tile fun k => { k with dig := { k.dig with seen := true, lines := 0, times := [] } })
  else .next s

/-- DIGITAL_LINE (R76 to R82): a run of words within TP_LV. -/
def execDigitalLine (t : Time) (tile : Tile) (words : List (BitVec 16)) (s : State) : Host.Outcome State Fault Refusal :=
  let s := (s.advance t).perfEvent 2 0x10 words.length
  if !s.readsDigital tile then .next s
  else
    let d := (s.tile tile).dig
    if !d.fv then .next ((s.bump .digFramingCnt tile).perfEvent 2 0x12)
    else if d.dropped || !d.seen then .next s
    else
      match s.seq.frame with
      | none => .next s
      | some (frame, ts) =>
        let ws := words.map (·.toNat)
        if ws.length ≠ s.lineWords tile || s.tileRows tile ≤ d.lines then .next (s.dropPort tile)
        else
          let s := s.modTile tile fun k => { k with dig := { k.dig with lines := d.lines + 1, times := d.times ++ [s.time] } }
          let ordered := if s.parBit .digFmt tile 7 then swapPairs ws else ws
          .next (if s.owns tile && !s.heldBack tile && s.reading.isSome then s.deliverLine tile frame ts d.lines ordered else s)

/-- TP_FV_FALL (R78): a frame of fewer than H_t lines is dropped. -/
def execTpFvFall (t : Time) (tile : Tile) (s : State) : Host.Outcome State Fault Refusal :=
  let s := s.advance t
  let d := (s.tile tile).dig
  let s := s.modTile tile fun k => { k with dig := { k.dig with fv := false } }
  if s.readsDigital tile && d.fv && d.seen && !d.dropped && d.lines < s.tileRows tile && s.seq.frame.isSome then
    .next (s.dropPort tile)
  else .next s

/-- TP_CLK_STOP (R78): no TP_CLK edge for 1 µs while TP_FV is high. -/
def execTpClkStop (t : Time) (tile : Tile) (s : State) : Host.Outcome State Fault Refusal :=
  let s := s.advance t
  let d := (s.tile tile).dig
  if s.readsDigital tile && d.fv && d.seen && !d.dropped && s.seq.frame.isSome then .next (s.dropPort tile) else .next s

end Sys2Proof.Machine
end

