-- ==== Sys2Proof/Machine/Housekeeping.lean ====
section
/-!
DEFINITION. The housekeeping converter (R101 to R111) and the reference buffer (R97): rounds, injected sequences, the
result queue. What the device does with a result stands in Machine/Thermal.lean.
-/
namespace Sys2Proof.Machine

def State.modHk (s : State) (f : Hk → Hk) : State := { s with hk := f s.hk }

/-! Injected sequences (R107 to R109). -/

/-- The entries that a trigger runs: those with a relative code are skipped where there is no trigger tile (R108). -/
def injectedEntries (entries : List Nat) (tile : Option Nat) : List Nat :=
  entries.filter fun e => bitsOf e 5 0 < 32 || tile.isSome

/-- The rank of a source among triggers of one 10 ns cycle: PFW_N, bias fault, flysheet, host (R109). -/
def injRank : Nat → Nat
  | 2 => 0
  | 1 => 1
  | 0 => 2
  | _ => 3

/-- An injected trigger of a source: 0 flysheet edge, 1 bias fault, 2 PFW_N, 3 host (R107, R109). One that arrives while a
sequence runs is dropped; of several in one 10 ns cycle the first by rank starts and the others are dropped. One whose entries are all
skipped starts no sequence (R108), so one of lower rank in its cycle does (log 152). -/
def State.injTrigger (s : State) (source : Nat) (tile : Option Nat) : State :=
  let start (es : List Nat) (s : State) : State :=
    s.modHk fun h => { h with inj := some { entries := es, tile, start := s.time, source } }
  if !s.hk.on || !bitOf s.hk.trig source then s
  else
    match s.hk.inj, injectedEntries s.hk.injected tile with
    | none, [] => s
    | none, es => start es s
    | some j, es =>
      let s := (s.bump .hkInjDrop).perfEvent 1 0x14
      if j.start / 10 = s.time / 10 && injRank source < injRank j.source && !es.isEmpty then start es s else s

/-! Rounds (R105, R106). -/

/-- A regular round starts. A committed change takes effect here, and due times count from here (R106). -/
def State.startRound (s : State) : State :=
  if s.hk.newCfg then
    s.modHk fun h =>
      let regular := (List.range (s.par .hkRegLen)).map fun i => s.par .hkRegEnt i
      { h with
        regular, round := regular, period := s.par .hkRound, waiting := false, newCfg := false
        injected := (List.range (s.par .hkInjLen)).map fun i => s.par .hkInjEnt i
        trig := s.par .hkInjTrig, due := s.time + s.par .hkRound * 100000 }
  else s.modHk fun h => { h with round := h.regular, waiting := false }

/-- The round that waits starts once neither a round nor an injected sequence runs. -/
def State.startWaiting (s : State) : State :=
  if s.hk.waiting && s.hk.round.isEmpty && s.hk.inj.isNone then s.startRound else s

/-- HK_ROUND_DUE (R105): a round falls due. It starts, waits for the running one and counts late, or is skipped. -/
def execHkRoundDue (t : Time) (s : State) : Host.Outcome State Fault Refusal :=
  let s := s.advance t
  if !s.hk.on || s.time < s.hk.due then .next s
  else
    let s := s.modHk fun h => { h with due := h.due + h.period * 100000 }
    if s.hk.waiting then .next (s.bump .hkRoundSkipCnt)
    else if !s.hk.round.isEmpty then .next ((s.bump .hkRoundLateCnt).modHk fun h => { h with waiting := true })
    else .next ((s.modHk fun h => { h with waiting := true }).startWaiting)

/-! Results (R104, R110). -/

/-- The channel of an entry: relative codes are resolved with the trigger tile (Table 3.3). -/
def entryChannel (e : Nat) (tile : Option Nat) : Nat :=
  let c := bitsOf e 5 0
  if c = 0x20 then 14 + tile.getD 0 else if c = 0x21 then 22 + tile.getD 0 else c

/-- The converter code of a source voltage in µV: floor(4,096 v / 1.2 V), limited to 0 to 4,095. VDDA_18, channel 30, comes
through an internal divider of 2 (Table 3.2, R104). -/
def hkCode (ch v : Nat) : Nat := min 4095 (4096 * v / if ch = 30 then 2400000 else 1200000)

/-- The average of an entry's codes, rounded half up to 12 bits (R104). -/
def entryAverage (e : Nat) (codes : List Nat) : Nat :=
  let n := 2 ^ bitsOf e 8 6
  min 4095 ((2 * (codes.take n).sum + n) / (2 * n))

/-- The VALUE of an averaged code: an F-die sensor's goes through its factory trim to round(16 (T + 64)), limited to 0 to
4,095 (R102). -/
def hkScale (ch code : Nat) : Nat :=
  if ch ≤ 5 then (clampI 0 4095 (rnd (16 * (Config.sensorTrim ch code + 64 * 65536)) 65536)).toNat else code

/-- The VALUE that an entry writes for the source voltages of its samples. -/
def entryValue (e ch : Nat) (volts : List Nat) : Nat := hkScale ch (entryAverage e (volts.map (hkCode ch)))

/-- Time base bits [27:16]. -/
def hkStamp (t : Time) : Nat := t / 65536 % 4096

/-- A word enters the result queue; a full queue discards its oldest word and marks the next (R110). -/
def State.hkPush (s : State) (w : Nat) : State :=
  if s.par .hkQEn = 0 then s
  else if s.hk.queue.length < 128 then s.modHk fun h => { h with queue := h.queue ++ [w] }
  else
    (s.modHk fun h => { h with queue := match h.queue.drop 1 ++ [w] with
      | [] => []
      | a :: r => (a ||| 0x40000) :: r }).bump .hkQOvfCnt

/-- A result is written to HK_LAST and the queue, and goes to the C-die (R43, R110). -/
def State.hkWrite (s : State) (ch v : Nat) (inj stale : Bool) : State :=
  let ts := hkStamp s.time
  let w := v + 4096 * ts + (if stale then 2 ^ 24 else 0) + 2 ^ 25
  let s := (s.modHk fun h => { h with last := h.last.set ch w }).sendAcross .fc (.hkResult ch w)
  (s.hkPush (v + 4096 * ch + (if inj then 0x20000 else 0) + (if stale then 0x80000 else 0) + 2 ^ 20 * ts)).perfEvent 1 0x13

/-- The VALUE of a channel, and whether it is valid and not stale (HK_LAST, Table 3.6b). -/
def State.hkValue (s : State) (ch : Nat) : Nat := s.hk.last.getD ch 0 % 4096
def State.hkGood (s : State) (ch : Nat) : Bool := bitOf (s.hk.last.getD ch 0) 25 && !bitOf (s.hk.last.getD ch 0) 24

/-- The same of HK_LAST as the C-die has it. -/
def State.shownValue (s : State) (ch : Nat) : Nat := s.hk.shown.getD ch 0 % 4096
def State.shownGood (s : State) (ch : Nat) : Bool := bitOf (s.hk.shown.getD ch 0) 25 && !bitOf (s.hk.shown.getD ch 0) 24

/-- An entry ends (R103, R104): a remote channel writes the latest value received, or nothing before the first. -/
def State.hkEntry (s : State) (e : Nat) (tile : Option Nat) (inj : Bool) (volts : List Nat) : State :=
  let ch := entryChannel e tile
  if 6 ≤ ch && ch ≤ 13 then
    match s.hk.remote.getD (ch - 6) none with
    | none => s
    | some (v, at_) => s.hkWrite ch v inj (decide (2000000 < s.time - at_))
  else s.hkWrite ch (entryValue e ch volts) inj false

/-! Register writes and the queue read. -/

/-- HK_INJ_FIRE_WRITE (R107, R108). A tile number from 8 to 14 is out of range. -/
def State.fireInjected (s : State) (v : Nat) : State :=
  if Param.inRange false .hkInjFire 0 v then
    s.writeAcross (Param.hkInjFire.id 0) v fun s => s.injTrigger 3 (if v = 15 then none else some v)
  else { s with wstatus := .badParam }

def execHkInjFireWrite (t : Time) (v : BitVec 4) (s : State) : Host.Outcome State Fault Refusal :=
  .next ((s.advance t).fireInjected v.toNat)

/-- HK_Q_EN: writing 0 empties the queue (R110). -/
def State.writeQEn (s : State) (v : Nat) : State :=
  let s := s.setPar .hkQEn 0 v
  if v = 0 then s.modHk fun h => { h with queue := [] } else s

def execHkQEnWrite (t : Time) (v : Bool) (s : State) : Host.Outcome State Fault Refusal :=
  let v := if v then 1 else 0
  .next ((s.advance t).writeShared (Param.hkQEn.id 0) v fun s => s.writeQEn v)

/-- A context whose role permits stream control (R254). -/
def State.streamControl (s : State) (x : Ctx) : Bool := roleAtLeast 3 (s.roleOf x)

/-- The oldest queue word is popped; an empty queue answers all ones (R110). -/
def State.popQueue (s : State) : Nat × State :=
  match s.hk.queue with
  | [] => (0xFFFFFFFF, s)
  | w :: r => (w, s.modHk fun h => { h with queue := r })

/-- HK_QUEUE_READ (R110, R111); the queue stands on the F-die: the read asks for the word, which comes back (R43, R282). -/
def execHkQueueRead (t : Time) (x : Ctx) (s : State) : Host.Outcome State Fault Refusal :=
  let s := s.advance t
  if !(s.isAuth x && s.streamControl x) then .next { s with wstatus := .notPermitted }
  else if !s.fdieUp then .next { s with wstatus := .failedFault }
  else
    let id := Param.hkQueue.id 0
    let r := (s.sendAcross .cf (.values [(id, 0)])).popQueue
    let s := r.2.sendAcross .fc (.values [(id, BitVec.ofNat 32 r.1)])
    .next { s with wstatus := .done, out := s.out ++ [.busRead x (BitVec.ofNat 32 r.1)] }

/-- ADC_REFEN (R97): READY follows 2.0 ms after the change from 0 to 1, and clears at once on 0; samples of the slot under way
follow it (R98). -/
def State.writeRefen (s : State) (v : Nat) : State :=
  let old := s.par .adcRefen
  let s := s.setPar .adcRefen 0 v
  if v = 0 then (s.modHk fun h => { h with refReady := false, refAt := none }).refChange false
  else if old = 0 then s.modHk fun h => { h with refAt := some s.time }
  else s

def execAdcRefenWrite (t : Time) (v : Bool) (s : State) : Host.Outcome State Fault Refusal :=
  let v := if v then 1 else 0
  .next ((s.advance t).writeShared (Param.adcRefen.id 0) v fun s => s.writeRefen v)

/-- REF_READY_EXPIRY (R97). -/
def execRefReadyExpiry (t : Time) (s : State) : Host.Outcome State Fault Refusal :=
  let s := s.advance t
  match s.hk.refAt with
  | some a =>
    if a + 2000000 ≤ s.time && s.par .adcRefen = 1 then
      .next ((s.modHk fun h => { h with refReady := true, refAt := none }).refChange true)
    else .next s
  | none => .next s

/-- BIAS_FAULT (R71): the comparator of an output has tripped. -/
def execBiasFault (t : Time) (tile : Tile) (o : BiasOut) (s : State) : Host.Outcome State Fault Refusal :=
  let s := s.advance t
  let s := s.modTile tile fun k => k.modBias o fun b => { b with fault := true }
  let s := (s.bump .biasFaultCnt tile).fdieEvent 0x0300 (leBytes 1 tile ++ leBytes 1 (biasIndex o))
  .next (s.injTrigger 1 (some tile.val))

end Sys2Proof.Machine
end

