-- ==== Sys2Proof/Machine/Calib.lean ====
section
/-!
DEFINITION. What the active calibration bundle holds (Tables 6.1 to 6.3), which tiles it calibrates (R198), the
temperature conversions (R185, R186), the choice of the set pair and weight (R130 to R132), and the calibration and drift
pixel records (R129, R133, R134, R171).
-/
namespace Sys2Proof.Machine

/-! Header fields (Table 6.1). -/

def hdrId (h : Bytes) : Bytes := sliceB 8 16 h
def hdrVersion (h : Bytes) : Nat := leAt h 24 4
def hdrSlot (h : Bytes) : Nat := leAt h 28 1
def hdrSets (h : Bytes) : Nat := leAt h 29 1
def hdrTiles (h : Bytes) : Nat := leAt h 30 1
def hdrRaise (h : Bytes) : Bool := bitOf (leAt h 31 1) 0
def hdrEph (h : Bytes) : Bytes := sliceB 56 97 h
def hdrLen (h : Bytes) : Nat := leAt h 160 8
def hdrChunks (h : Bytes) : Nat := leAt h 168 4
def hdrDigest (h : Bytes) : Bytes := sliceB 176 48 h
def hdrSetTemp (h : Bytes) (i : Nat) : Int := signed 16 (leAt h (224 + 2 * i) 2)
def hdrTref (h : Bytes) (t : Nat) : Nat := leAt h (248 + t) 1
def hdrCols (h : Bytes) (t : Nat) : Nat := leAt h (256 + 8 * t) 2
def hdrRows (h : Bytes) (t : Nat) : Nat := leAt h (258 + 8 * t) 2
def hdrKind (h : Bytes) (t : Nat) : Nat := leAt h (260 + 8 * t) 1

/-- The tile geometry that a bundle is compared with. -/
def State.geomMatches (s : State) (h : Bytes) (t : Nat) : Bool :=
  hdrCols h t == s.par .actCols t && hdrRows h t == s.par .actRows t
    && hdrKind h t % 8 == s.par .tileKind t + 2 * s.par .specEn t + 4 * s.par .specPhase t

/-- Tile t is calibrated (R198). -/
def State.calibrated (s : State) (t : Nat) : Bool :=
  match s.bundle with
  | some b => bitOf (hdrTiles b.hdr) t && s.geomMatches b.hdr t
  | none => false

/-- CAL_TILES. -/
def State.calTiles (s : State) : Nat := maskOf ((List.range 8).map s.calibrated)

/-- Stage 2 to 4 use the bundle for the tile (R118, R198). -/
def State.calFor (s : State) (t : Nat) : Option Bundle := if s.calibrated t then s.bundle else none

/-! Temperatures (R185, R186). -/

/-- A conversion with 17 points. -/
def convertPoints (pts : Bytes) (v : Nat) : Int :=
  let i := v / 256
  let p (i : Nat) := signed 16 (leAt pts (2 * i) 2)
  clampI (-32768) 32767 (p i + rnd ((p (i + 1) - p i) * (v % 256 : Nat)) 256)

/-- A section of a tile. -/
def tileSection (l : List (Nat × Bytes)) (t : Nat) : Bytes := ((l.find? fun e => e.1 == t).map (·.2)).getD []

/-- The substrate temperature that a VALUE of HK14 + t stands for. -/
def Bundle.substrate (b : Bundle) (t v : Nat) : Int := convertPoints (tileSection b.tsub t) v

/-- The temperature of a reference channel. -/
def Bundle.channelTemp (b : Bundle) (ch v : Nat) : Int :=
  if ch ≤ 13 then clampI (-32768) 32767 (16 * (v : Int) - 16384)
  else if ch = 31 then convertPoints b.housing v
  else b.substrate (ch - 14) v

/-! The set pair (R131, R132). -/

/-- lo, hi, W and CAL_EXTRAPOLATION_CLAMP for n sets. -/
def pairFor (temp : Nat → Int) (n : Nat) (tref : Int) : Nat × Nat × Nat × Bool :=
  if n ≤ 1 then (0, 0, 0, tref != temp 0)
  else if tref < temp 0 then (0, 1, 0, true)
  else if temp (n - 1) < tref then (n - 2, n - 1, 32768, true)
  else
    let k := ((List.range (n - 1)).find? fun k => tref ≤ temp (k + 1)).getD 0
    (k, k + 1, (rnd (32768 * (tref - temp k)) (temp (k + 1) - temp k).toNat).toNat, false)

/-- T_ref, the pair and W of a tile at a tick (R130 to R132), and whether the frame of a numbered tick carries
CAL_EXTRAPOLATION_CLAMP. An idle tick opens no frame, so what a later tick keeps stays that of the latest frame. -/
def State.interpTick (s : State) (numbered : Bool) (t : Tile) : State :=
  match s.calFor t with
  | none => if numbered then s.modDrift t fun d => { d with clamp := false } else s
  | some b =>
    let ch := hdrTref b.hdr t
    let set (kept : Bool) (tref : Int) (p : Nat × Nat × Nat × Bool) (d : Drift) : Drift :=
      { d with
          lo := p.1, hi := p.2.1, w := p.2.2.1, tref, kept
          clamp := if numbered then p.2.2.2 else d.clamp
          prevPair := if numbered then some (p.1, p.2.1, p.2.2.1, tref) else d.prevPair }
    s.modDrift t fun d =>
      if s.shownGood ch then
        let tref := b.channelTemp ch (s.shownValue ch)
        set false tref (pairFor (hdrSetTemp b.hdr) (hdrSets b.hdr) tref) d
      else
        match d.prevPair with
        | some (lo, hi, w, tref) => set true tref (lo, hi, w, d.clamp) d
        | none => set true d.tref (0, 0, 0, true) d

/-! Calibration pixel records (R129, R133, R134). -/

/-- The fields of a record of Table 4.3. -/
structure Cpr where
  ofs : Int
  gain : Nat
  drc : Int
  cls : Nat
  nlix : Nat
deriving DecidableEq, Repr

def Cpr.ofNat (v : Nat) : Cpr :=
  { ofs := signed 24 (bitsOf v 63 40), gain := bitsOf v 39 24, drc := signed 16 (bitsOf v 23 8), cls := bitsOf v 7 4
    nlix := bitsOf v 3 0 }

/-- The values that stage 4 uses without a calibration (R118). -/
def Cpr.identity : Cpr := { ofs := 0, gain := 0x4000, drc := 0, cls := 0, nlix := 0 }

/-- RP, the row pitch of a CPR section in records (R183). -/
def cprPitch (cols : Nat) : Nat := roundUp 64 cols

/-- The address of a pixel's record in a set. -/
def Bundle.cprAddr (b : Bundle) (t set x y : Nat) : Nat :=
  match b.cpr.find? fun e => e.1 == t && e.2.1 == set with
  | some e => e.2.2 + 8 * (y * cprPitch (hdrCols b.hdr t) + x)
  | none => 0

def State.cprOf (s : State) (b : Bundle) (t set x y : Nat) : Cpr := Cpr.ofNat (leNat (s.readMem (b.cprAddr t set x y) 8))

/-- The interpolated record of a pixel (R133, R134). -/
def interpolate (lo hi : Cpr) (w : Nat) : Cpr :=
  let mix (a b : Int) : Int := a + rnd (w * (b - a)) 32768
  let defective (c : Cpr) := 1 ≤ c.cls && c.cls ≤ 13
  { ofs := mix lo.ofs hi.ofs, gain := (mix lo.gain hi.gain).toNat, drc := mix lo.drc hi.drc
    cls := if lo.gain = 0 || hi.gain = 0 then 1
      else if defective lo || defective hi then (if lo.cls = 0 then hi.cls else lo.cls) else lo.cls
    nlix := if w < 16384 then lo.nlix else hi.nlix }

/-- Stage 4 of a pixel: identity without calibration or in a failed block (R118, R197), else the mixture; OG = 0 takes
offset and gain out. -/
def State.stage4 (s : State) (t lo hi w x y : Nat) (failed : Bool) : Cpr :=
  match s.calFor t with
  | none => .identity
  | some b =>
    if failed then .identity
    else
      let c := interpolate (s.cprOf b t lo x y) (s.cprOf b t hi x y) w
      if s.stageOn t 1 then c else { c with ofs := 0, gain := 0x4000 }

/-- The number of pixels with DEF_i of 1 to 15 under a set pair, over the tile's whole active area (R138). -/
def State.staticDefects (s : State) (t lo hi w : Nat) : Nat :=
  match s.calFor t with
  | none => 0
  | some b =>
    ((List.range (s.par .actRows t)).map fun y =>
      ((List.range (s.par .actCols t)).filter fun x =>
        (interpolate (s.cprOf b t lo x y) (s.cprOf b t hi x y) w).cls != 0).length).sum

/-! Drift pixel records (R171). -/

structure Dpr where
  sho : Int
  sbo : Int
  conf : Nat
deriving DecidableEq, Repr

def Dpr.ofNat (v : Nat) : Dpr := { sho := signed 16 (bitsOf v 31 16), sbo := signed 12 (bitsOf v 15 4), conf := bitsOf v 3 0 }

def Dpr.word (d : Dpr) : Nat := unsigned 16 d.sho * 65536 + unsigned 12 d.sbo * 16 + d.conf % 16

def State.dprAddr (s : State) (t x y : Nat) : Nat :=
  driftMapAddr + 16 * mib * t + 4 * (y * roundUp 128 (s.par .actCols t) + x)

def State.dprOf (s : State) (t x y : Nat) : Dpr := Dpr.ofNat (leNat (s.readMem (s.dprAddr t x y) 4))

def State.putDpr (s : State) (t x y : Nat) (d : Dpr) : State := s.writeMem (s.dprAddr t x y) (leBytes 4 d.word)

end Sys2Proof.Machine
end

