-- ==== Sys2Proof/Machine/Drift.lean ====
section
/-!
DEFINITION. Drift tracking and flysheet cycles (chapter 5): the drive, the steps of a cycle, faults and aborts, the reasons
and starts of cycles at a tick, the substrate temperature with its excursion and rate, and the installation of a reference.
-/
namespace Sys2Proof.Machine

/-! Settings of FLY_CFG and its companions (Table 5.8). -/

def State.flyEn (s : State) (t : Tile) : Bool := s.parBit .flyCfg t 0
def State.flyPulse (s : State) (t : Tile) : Nat := s.parField .flyCfg t 7 2 * 1000000
def State.cmSrc (s : State) (t : Tile) : Nat := s.parField .flyCfg t 15 14

/-- FLY_POS shows open, or shows closed (R151). -/
def State.showsOpen (s : State) (t : Tile) : Bool :=
  match (s.dr t).pos with
  | some l => l == s.parBit .flyCfg t 1
  | none => false
def State.showsClosed (s : State) (t : Tile) : Bool :=
  match (s.dr t).pos with
  | some l => l != s.parBit .flyCfg t 1
  | none => false

/-- The tile is inside its inhibit window (R161). -/
def State.inhibited (s : State) (t : Tile) : Bool :=
  match (s.dr t).inhibit with
  | some w => w.start ≤ s.time && (match w.stop with | some e => s.time < e | none => true)
  | none => false

/-- C_t (R173). -/
def State.confOf (s : State) (t : Tile) : Nat :=
  if (s.dr t).hasRef then 15 - (s.dr t).exc / max 1 (s.parField .flyConfCfg t 19 8) else 0

/-- A tile of the peer runs a cycle, as its tile state record says (R334, R337). -/
def State.peerCycle (s : State) (t : Tile) : Bool :=
  s.pair.mode == .paired && !s.owns t && (s.dr t).step != .off && (s.dr t).step != .isOpen && (s.dr t).step != .fault

/-- Frames are hold frames of an activation (R193). -/
def State.holding (s : State) : Bool := match s.act with
  | .holding _ _ _ => true
  | _ => false

/-- The region of the tile is STALE (R158, R164, R165). -/
def State.staleNow (s : State) (t : Tile) : Bool :=
  s.flyEn t && ((s.dr t).cycle.isSome || s.peerCycle t || (s.dr t).stale != .live)

/-! The drive (R150, R153). -/

/-- A drive pulse starts. While PFW_N is asserted none does (R369): the pulse is withheld until PFW_N is released (log 37).
During a thermal shutdown both outputs stay low for its length (R150). -/
def State.drive (s : State) (t : Tile) (d : Drive) (at_ : Time) (len : Nat) : State :=
  if s.clk.pfw then s.modDrift t fun k => { k with pulseHeld := some len }
  else
    let d := if s.thm.shutdown then .off else d
    let s := s.sendAcross .cf (.flysheet t (if d = .close then 1 else if d = .isOpen then 2 else 0) (len / 1000000))
    s.modDrift t fun k => { k with drive := d, pulseAt := at_, pulseEnd := at_ + len, pulseHeld := none }

def State.driveOff (s : State) (t : Tile) : State := s.modDrift t fun k => { k with drive := .off, pulseHeld := none }

/-- An open pulse that PFW_N held back starts. -/
def State.releasePulse (s : State) (t : Tile) : State :=
  match (s.dr t).pulseHeld with
  | some len => s.drive t .isOpen s.time len
  | none => s

/-- A close pulse, which counts one actuation. -/
def State.closePulse (s : State) (t : Tile) (at_ : Time) (len : Nat) : State :=
  (s.drive t .close at_ len).modDrift t fun k => { k with acts := satAdd 0xFFFFFFFF k.acts 1, actsNew := k.actsNew + 1 }

/-- FLY_PULSE of the running cycle, or the active one. -/
def State.pulseOf (s : State) (t : Tile) : Nat :=
  match (s.dr t).cycle with
  | some c => c.pulse * 1000000
  | none => s.flyPulse t

/-! Commands that wait for cycles (R162). -/

/-- How a requested cycle ended. -/
inductive FlyEnd where | done (moving : Bool) | aborted | faulted
deriving DecidableEq, Repr

/-- A waiting FLY_CYCLE with the outcome of one more tile. -/
def flyNote (t : Nat) (e : FlyEnd) (w : Wait) : Wait :=
  match w with
  | .fly asked done moving aborted faulted =>
    if bitOf asked t && !bitOf (done ||| aborted ||| faulted) t then
      match e with
      | .done m => .fly asked (done ||| 2 ^ t) (if m then moving ||| 2 ^ t else moving) aborted faulted
      | .aborted => .fly asked done moving (aborted ||| 2 ^ t) faulted
      | .faulted => .fly asked done moving aborted (faulted ||| 2 ^ t)
    else w
  | _ => w

/-- The completion of a FLY_CYCLE whose tiles have all ended. -/
def flyResult (w : Wait) : Option (Status × Nat) :=
  match w with
  | .fly asked done moving aborted faulted =>
    if (done ||| aborted ||| faulted) &&& asked = asked then
      some (if faulted ≠ 0 then .failedFault else if aborted ≠ 0 then .aborted else if moving ≠ 0 then .doneMarked else .done,
        done + 256 * moving + 65536 * (aborted ||| faulted))
    else none
  | _ => none

/-- A cycle of a tile ended, or its request went: the waiting commands that are chosen take note and may complete. -/
def State.flyEndedFor (s : State) (p : Cmd → Bool) (t : Tile) (e : FlyEnd) : State :=
  let s : State := { s with ctxs := s.ctxs.map fun k =>
    { k with inflight := k.inflight.map fun c => if p c then { c with wait := flyNote t e c.wait } else c } }
  s.completeWhere fun _ c => flyResult c.wait

def State.flyEnded (s : State) (t : Tile) (e : FlyEnd) : State := s.flyEndedFor (fun _ => true) t e

/-- A command waits for a tile's cycle. -/
def waitsForFly (t : Nat) (w : Wait) : Bool :=
  match w with
  | .fly asked done _ aborted faulted => bitOf asked t && !bitOf (done ||| aborted ||| faulted) t
  | _ => false

/-! Faults and aborts (R163 to R165). -/

/-- The HOST reason is dropped. -/
def State.dropHost (s : State) (t : Tile) (e : FlyEnd) : State :=
  if (s.dr t).reasons.getLsbD 4 then
    (s.modDrift t fun k => { k with reasons := k.reasons &&& 0b01111, force := false }).flyEnded t e
  else s

/-- The running cycle ends; its scratch data go. -/
def State.endCycle (s : State) (t : Tile) (e : FlyEnd) : State :=
  if (s.dr t).cycle.isSome then
    (s.modDrift t fun k => { k with cycle := none, step := .isOpen, edge := false }).flyEnded t e
  else s

/-- A flysheet fault (R163): a tile already in fault raises no further one. Its reasons go at the next tick (R159, R162). -/
def State.flyFault (s : State) (t : Tile) (cause : Nat) (at_ : Time) : State :=
  if (s.dr t).inFault then s
  else
    let len := s.pulseOf t
    let s := s.endCycle t .faulted
    let mark (k : Drift) : Drift :=
      { k with inFault := true, step := .fault, cause, stale := .untilOpen, openWait := false }
    let s := ((s.modDrift t mark).bumpHalf .flyEvtCnt t 1 1).raise0 .fc 2 t cause
    if cause = 2 then s.drive t .isOpen at_ len else if cause = 4 then s.driveOff t else s

/-- An abort of a running cycle (R163, Table 5.5). -/
def State.flyAbort (s : State) (t : Tile) (cause : Nat) (at_ : Time) : State :=
  if (s.dr t).cycle.isSome then
    let len := s.pulseOf t
    let pulse := cause = 8 || cause = 10 || cause = 11 || cause = 12 || (cause = 13 && s.showsClosed t)
    let s := s.endCycle t .aborted
    let s := ((s.modDrift t fun k => { k with cause, stale := .untilOpen, openWait := pulse }).bumpHalf .flyEvtCnt t 1 1).devEvent
      0x0601 (leBytes 1 t ++ leBytes 1 cause)
    if pulse then s.drive t .isOpen at_ len else if cause = 9 then s.driveOff t else s
  else s

/-- Every running cycle aborts. -/
def State.flyAbortAll (s : State) (cause : Nat) (at_ : Time) : State := allTiles.foldl (fun s t => s.flyAbort t cause at_) s

/-- A fault stops the streams, and with them every running cycle, with cause STOPPED (R163, R282). -/
def State.stopStreams (s : State) (cause : Nat) : State := (s.faultStreams cause).flyAbortAll 12 s.time

/-- FLY_EN changes (R150, R151, R165): at 1 the standing level counts as accepted; at 0 a running cycle aborts TILE_OFF, the
fault is cleared and FLY_POS is ignored. -/
def State.flyEnChange (s : State) (t : Tile) (now : Bool) : State :=
  if now then s.modDrift t fun k => { k with pos := some k.posPin, step := .isOpen, stale := .live }
  else
    let running := (s.dr t).cycle.isSome
    let s := (s.flyAbort t 11 s.time).dropHost t (if (s.dr t).inFault || (s.tile t).faulted then .faulted else .aborted)
    let off (k : Drift) : Drift :=
      { k with inFault := false, step := .off, stale := .live, openWait := false, pos := none
               drive := if running then k.drive else .off, pulseHeld := if running then k.pulseHeld else none }
    s.modDrift t off

/-! Substrate temperature, excursion and rate (R167, R172 to R174). -/

/-- A past reading as a temperature: converted with the present TSUB section, or the Ts_now that stood for it. -/
def pastTemp (b : Bundle) (t : Nat) (e : Time × Bool × Int) : Int :=
  if e.2.1 then b.substrate t e.2.2.toNat else e.2.2

/-- The readings kept: the latest at or before 1.0 s ago, and all later ones. -/
def keepPast (now : Time) : List (Time × Bool × Int) → List (Time × Bool × Int)
  | a :: b :: r => if b.1 + 1000000000 ≤ now then keepPast now (b :: r) else a :: b :: r
  | r => r

/-- The tick's substrate step of a tile. -/
def State.substrateTick (s : State) (now : Time) (t : Tile) : State :=
  let valid := bitOf (s.hk.shown.getD (14 + t) 0) 25
  let v := s.shownValue (14 + t)
  let note (k : Drift) : Drift :=
    { k with past := keepPast now (k.past ++ [(now, valid, if valid then (v : Int) else k.tsNow)]) }
  match s.calFor t with
  | none => (s.modDrift t fun k => { k with rate := 0 }).modDrift t note
  | some b =>
    let move (k : Drift) : Drift :=
      let ts := if valid then b.substrate t v else if k.hasRef then k.tsFly else k.tsNow
      let k := { k with tsNow := ts, tsFly := if k.hasRef then k.tsFly else ts }
      let k :=
        if !k.cntSet then { k with tsCnt := ts, cntSet := true }
        else
          let d := (ts - k.tsCnt).natAbs
          if 16 ≤ d then { k with exc := satAdd 0xFFFF k.exc d, tsCnt := ts } else k
      let k := note k
      let old := match k.past with
        | e :: _ => pastTemp b t e
        | [] => ts
      { k with rate := (ts - old).natAbs }
    s.modDrift t move

/-- The rate test |Ts_now - Ts_1s| x 1,000 > FLY_RATE_LIM x 256 (R174). -/
def State.movingNow (s : State) (t : Tile) : Bool := s.par .flyRateLim t * 256 < (s.dr t).rate * 1000

/-- TS_RATE in mK/s, rounded to the nearest (log 137). -/
def Drift.rateMk (d : Drift) : Nat := min 0xFFFF (rnd (d.rate * 1000) 256).toNat

/-! The end of step 4 (R157). -/

/-- The records of a read row take the new SHO; SBO returns to 0. -/
def State.installRow (s : State) (t : Tile) (conf : Nat) (y : Nat) (row : List (Int × Bool)) : State :=
  (row.zipIdx).foldl (fun s e => s.putDpr t e.2 y { sho := e.1.1, sbo := 0, conf := if e.1.2 then 0 else conf }) s

/-- CONF goes to 0 in a row that was not read. -/
def State.unmeasured (s : State) (t : Tile) (y : Nat) : State :=
  (List.range (s.par .actCols t)).foldl (fun s x => s.putDpr t x y { s.dprOf t x y with conf := 0 }) s

/-- The reference is installed. What the tile configuration has changed to during the cycle counts as changed since (log 50). -/
def State.installRef (s : State) (t : Tile) (c : Cycle) (map : List (Nat × List (Int × Bool))) (now : Time) : State :=
  let fresh (k : Drift) : Drift :=
    { k with
      tsFly := rnd c.tsum (max 1 c.used), cmBase := c.cmNew, moving := c.moving, hasRef := true, lastRef := c.lastFrame
      lastRefTime := now, cfgChanged := c.cfg, cmChanged := c.cmSrc != s.cmSrc t, tmaxDue := false
      exc := if c.moving then k.exc else 0, tsCnt := if c.moving then k.tsCnt else k.tsNow }
  let s := s.modDrift t fresh
  let conf := if c.moving then s.confOf t else 15
  let s := map.foldl (fun s r => s.installRow t conf r.1 r.2) s
  ((List.range (s.par .actRows t)).filter fun y => !map.any fun r => r.1 == y).foldl (fun s y => s.unmeasured t y) s

/-! The cycle at a tick (Table 5.2). -/

def State.modCycle (s : State) (t : Tile) (f : Cycle → Cycle) : State :=
  s.modDrift t fun k => { k with cycle := k.cycle.map f }

def State.setStep (s : State) (t : Tile) (p : FlyStep) : State := s.modDrift t fun k => { k with step := p, edge := false }

/-- MOVING is tested at the ticks of close settle and average. -/
def State.cycleMoving (s : State) (t : Tile) : State :=
  if ((s.dr t).step = .closeSettle || (s.dr t).step = .average) && s.movingNow t then
    s.modCycle t fun c => { c with moving := true }
  else s

/-- The step of a running cycle moves on at a tick. -/
def State.advanceCycle (s : State) (numbered : Bool) (ts : Time) (t : Tile) : State :=
  match (s.dr t).cycle with
  | none => s
  | some c =>
    if !numbered then s.flyAbort t 12 ts
    else if !s.tileOn t then s.flyAbort t 11 ts
    else
      let k := s.dr t
      let s := match k.step with
        | .close => if k.edge then (s.setStep t .closeSettle).modCycle t fun c => { c with left := 2 } else s
        | .closeSettle =>
          if c.left ≤ 1 then s.setStep t .average else s.modCycle t fun c => { c with left := c.left - 1 }
        | .average =>
          if 4 ≤ c.discarded then s.flyAbort t 10 ts
          else if c.avg ≤ c.used then s.setStep t .compute else s
        | .compute =>
          match c.map with
          | some m => ((s.installRef t c m ts).setStep t .opening).drive t .isOpen ts (c.pulse * 1000000)
          | none => s
        | .opening => if k.edge then (s.setStep t .openSettle).modCycle t fun c => { c with left := 1 } else s
        | .openSettle => s.endCycle t (.done c.moving)
        | _ => s
      s.cycleMoving t

/-- STALE outside a cycle at a tick (R164, R165): the frame of this tick is STALE unless the answer is live. In fault, a
flag that does not show open any more makes the region STALE again (R165). -/
def State.staleTick (s : State) (ts : Time) (t : Tile) : State :=
  let k := s.dr t
  let again : StaleExit := if k.inFault && !s.showsOpen t then .untilOpen else .live
  let next : StaleExit := match k.stale with
    | .live | .oneMore => again
    | .untilOpen => if s.showsOpen t then .oneMore else .untilOpen
    | .untilPulse => if k.pulseHeld.isNone && k.pulseEnd ≤ ts then .pulseFrame else .untilPulse
    | .pulseFrame => .live
  s.modDrift t fun d => { d with stale := next }

/-! Reasons and starts (R159, R160). -/

/-- FLY_TMAX seconds have passed since the last reference (R159). -/
def State.tmaxPassed (s : State) (now : Time) (t : Tile) : Bool :=
  s.par .flyTmax t ≠ 0 && (s.dr t).lastRefTime + s.par .flyTmax t * 1000000000 ≤ now

/-- The reasons of a tile at a tick. -/
def State.reasonsAt (s : State) (now : Time) (t : Tile) : BitVec 5 :=
  let k := s.dr t
  let host : BitVec 5 := k.reasons &&& 0b10000
  if s.calibrated t then
    if !k.hasRef then host ||| 0b00100
    else
      let dts := s.par .flyDts t < (k.tsNow - k.tsFly).natAbs
      let tmax := s.tmaxPassed now t
      let conf := s.confOf t < s.parField .flyConfCfg t 3 0 && !s.movingNow t
      host ||| BitVec.ofNat 5 (maskOf [dts, tmax, conf, k.cfgChanged])
  else host

/-- A tile of the peer at a tick without a stream: its owner drops its reasons and aborts its cycle, and no record says so, since an
idle tick has none (R159, R163, R337). -/
def State.peerIdle (s : State) (t : Tile) : State :=
  let k := s.dr t
  let s := s.modDrift t fun d =>
    { d with reasons := 0, force := false, dueSince := none, step := if s.peerCycle t then .isOpen else d.step }
  s.flyEnded t (if k.inFault then .faulted else .aborted)

/-- The evaluation of a tile at a tick (R159). -/
def State.evaluateFly (s : State) (numbered : Bool) (now : Time) (t : Tile) : State :=
  let k := s.dr t
  if s.pair.mode == .paired && !s.owns t then (if numbered then s else s.peerIdle t)
  else if !s.flyEn t || !s.tileOn t || (s.tile t).faulted || k.inFault || !numbered then
    let s := s.dropHost t (if k.inFault || (s.tile t).faulted then .faulted else .aborted)
    s.modDrift t fun d => { d with reasons := 0, dueSince := none }
  else
    let r := s.reasonsAt now t
    s.modDrift t fun d =>
      { d with reasons := r, tmaxDue := d.hasRef
        && s.tmaxPassed now t, dueSince := if r = 0 then none else some (d.dueSince.getD s.tick.frameNum) }

/-- A cycle starts at tick k (R154, Table 5.2 step 1): a flag that shows closed is fault 1. -/
def State.startCycle (s : State) (ts : Time) (t : Tile) : State :=
  let fresh : Cycle :=
    { avg := s.parField .flyCfg t 13 8, cmSrc := s.cmSrc t, dscr := s.stageOn t 8, pulse := s.parField .flyCfg t 7 2
      left := 0, used := 0, discarded := 0, moving := false, tsum := 0, msum := 0, mcount := 0, acc := [], inSet := []
      last := [], s1 := [], s2 := [], lastFrame := 0, map := none, cmNew := 0, cfg := false }
  let begin_ (k : Drift) : Drift :=
    { k with cycle := some fresh, step := .close, edge := false, force := false, reasons := k.reasons &&& 0b01111 }
  let s := s.modDrift t begin_
  if s.showsOpen t then s.closePulse t ts (s.flyPulse t) else s.flyFault t 1 ts

/-- The region of a tile is live, of a tile of the peer as its block of the latest frame says (R160, R334). -/
def State.regionLive (s : State) (t : Tile) : Bool :=
  if s.pair.mode == .paired && !s.owns t then !bitOf (leAt (s.dr t).lastBlock 0 2) flagStale else (s.dr t).stale == .live

/-- The due tiles in the order in which they are taken: by due tick, then by t. -/
def State.dueTiles (s : State) : List Tile :=
  let due := allTiles.filter fun t =>
    (s.dr t).dueSince.isSome && (s.dr t).cycle.isNone && s.regionLive t && !s.peerCycle t
      && (s.owns t || (s.pair.mode == .paired && s.pair.role == 0))
  due.mergeSort fun a b =>
    let x := (s.dr a).dueSince.getD 0
    let y := (s.dr b).dueSince.getD 0
    x < y || (x == y && a ≤ b)

/-- Running cycles, in a pair on both devices (R160, R337). -/
def State.cycles (s : State) : Nat := (allTiles.filter fun t => (s.dr t).cycle.isSome || s.peerCycle t).length

/-- A due tile at a tick: deferred inside its window, else started while the limit allows (R160) and PFW_N is not asserted
(R369). -/
def State.takeDue (s : State) (limit : Nat) (ts : Time) (t : Tile) : State :=
  if s.inhibited t && !(s.dr t).force then
    match (s.dr t).inhibit with
    | some w =>
      if w.raised || !s.owns t then s
      else
        ((s.modDrift t fun k => { k with inhibit := some { w with raised := true } }).bumpHalf .flyEvtCnt t 0 1).devEvent
          0x0602 (leBytes 1 t ++ leBytes 1 (s.dr t).reasons.toNat)
    | none => s
  else if s.cycles < limit && !(s.clk.pfw && s.owns t) then
    if s.owns t then s.startCycle ts t else (s.modDrift t fun k => { k with dueSince := none, step := .close, force := false })
  else s

/-- The cycles that the LEAD starts on its own tiles, as the tick message names them to the PARTNER. -/
def State.leadStarts (s : State) (g : Nat) : State :=
  (allTiles.filter fun t => bitOf g t.val && !s.owns t).foldl
    (fun s t => s.modDrift t fun k => { k with dueSince := none, step := .close }) s

/-- Starts at a tick. In a pair the LEAD chooses over all tiles; a PARTNER starts those of its tiles that the tick message
grants, and the limit was the LEAD's (R337). -/
def State.startCycles (s : State) (ts : Time) (grants : Option Nat) : State :=
  match grants with
  | none => s.dueTiles.foldl (fun s t => s.takeDue (s.par .flyMaxConc) ts t) s
  | some g => ((s.dueTiles.filter s.owns).foldl (fun s t => s.takeDue (if bitOf g t.val then 9 else 0) ts t) s).leadStarts g

/-- DRIFT_DEGRADED of a tile at a tick (R176). -/
def State.degradedNow (s : State) (t : Tile) : Bool :=
  s.confOf t < s.parField .flyConfCfg t 7 4 && (s.inhibited t || (s.dr t).inFault || !s.flyEn t)

/-- What chapter 5 does at a tick, numbered or idle, with timestamp ts. DRIFT_DEGRADED is that of the latest frame: an idle tick opens
none (R177, R178). -/
def State.flyTick (s : State) (numbered : Bool) (ts : Time) (grants : Option Nat) : State :=
  let s := allTiles.foldl (fun s t => (s.interpTick numbered t).substrateTick ts t) s
  let s := allTiles.foldl (fun s t => s.advanceCycle numbered ts t) s
  let s := allTiles.foldl (fun s t => s.evaluateFly numbered ts t) s
  let s := allTiles.foldl (fun s t => if (s.dr t).cycle.isNone then s.staleTick ts t else s) s
  let s := s.startCycles ts grants
  let last (s : State) (t : Tile) : State :=
    let stale := s.staleNow t || s.holding
    let deg := if numbered then s.tileOn t && s.degradedNow t else (s.dr t).degraded
    s.modDrift t fun k => { k with degraded := deg, histEmpty := k.histEmpty || (k.wasStale && !stale), wasStale := stale }
  allTiles.foldl last s

/-- A bundle activation resets the drift state (R166, R142). -/
def State.driftReset (s : State) : State :=
  let s := s.flyAbortAll 8 s.time
  let wipe (k : Drift) : Drift :=
    { k with
      tsNow := 0, tsFly := 0, cmBase := 0, exc := 0, tsCnt := 0, cntSet := false, hasRef := false, moving := false
      cfgChanged := false, cmChanged := false, tmaxDue := false, prevPair := none, cands := [], candCnt := 0
      histEmpty := true, blocks1 := [], blocks2 := [] }
  { (s.clearMem driftMapAddr (128 * mib)).clearMem (candAddr 0) 0x40000 with drift := s.drift.map wipe }

end Sys2Proof.Machine
end

