-- ==== Sys2Proof/Machine/Pipeline.lean ====
section
/-!
DEFINITION. Stages 1 to 7 of the correction pipeline (chapter 4): stitching, linearisation, merge, interpolation, drift
terms, defect replacement and spectral demosaic; and the scene-based estimator (R168 to R170).
-/
namespace Sys2Proof.Machine

/-- The marker value (R121). -/
def marker : Int := -524288

/-- Saturation of E and NC, and whether it took place (R120, R137). -/
def satNc (v : Int) : Int × Bool := (clampI (-524287) 524287 v, v < -524287 || 524287 < v)

/-! Stages 1 to 3. -/

/-- The table of a column of the tile: its tap's, real or virtual (R57, R124). -/
def State.linTap (s : State) (t c : Nat) : Nat :=
  let cols := s.rowCols t
  if s.isDigital t || s.par .tapMode t = 0 then min 7 (c / max 1 (cols / 8)) else 2 * min 3 (c / max 1 (cols / 4))

/-- The table of stage 2: none for identity (R125). -/
def State.linTable (s : State) (t : Nat) : Option Bytes :=
  if s.stageOn t 0 then (s.calFor t).map fun b => tileSection b.lin t else none

/-- BASE and SLOPE of entry i of a tap (Table 4.2, R125). -/
def linEntry (tbl : Option Bytes) (tap i : Nat) : Nat × Int :=
  match tbl with
  | none => (1024 * i, 512)
  | some b =>
    let v := leAt b (4096 * tap + 4 * i) 4
    (bitsOf v 19 0, signed 12 (bitsOf v 31 20))

/-- yn of a raw code of w bits, and whether it saturated (R124). -/
def linearise (tbl : Option Bytes) (tap w x : Nat) : Nat × Bool :=
  let u := x * 2 ^ (16 - w)
  let e := linEntry tbl tap (u / 64)
  let y0 : Int := e.1 + rnd (e.2 * (u % 64 : Nat)) 32
  let y := clampI 0 1048575 y0
  let n := (rnd y (2 ^ (16 - w))).toNat
  let top := 2 ^ (w + 4) - 1
  (min n top, y != y0 || top < n)

/-- The ratio Q in use (R65, R126). -/
def State.intRatio (s : State) (t : Nat) : Nat := min 0xFFFF (rnd (s.par .intLLen t * 4096) (max 1 (s.par .intSLen t))).toNat
def State.mergeRatioInUse (s : State) (t : Nat) : Nat :=
  if s.par .mergeRatioOvr t = 0 then s.intRatio t else s.par .mergeRatioOvr t

/-- The merge of the two linear values (R127). -/
def mergeValue (knee long short : Nat) : Nat :=
  if long < knee then long
  else if long < knee + 256 then
    let b := long - knee
    (rnd (long * (256 - b) + short * b) 256).toNat
  else short

/-- LV of column c of a row, and whether stages 2 and 3 saturated (R122, R126). Words are those of the row in column order. -/
def State.linearValue (s : State) (t : Nat) (tbl : Option Bytes) (words : List Nat) (c : Nat) : Nat × Bool :=
  let w := s.sampleBits t
  let x (n : Nat) : Nat := let v := words.getD n 0; if s.isDigital t then s.pixelValue t v else v % 16384
  let tap := s.linTap t c
  if s.hdr t then
    let short := linearise tbl tap w (x (2 * c))
    let long := linearise tbl tap w (x (2 * c + 1))
    let lvL := (rnd long.1 16).toNat
    let lvS := (rnd (short.1 * s.mergeRatioInUse t) 65536).toNat
    (mergeValue (s.par .mergeKnee t) lvL lvS, short.2 || long.2)
  else
    let one := linearise tbl tap w (x c)
    ((rnd one.1 16).toNat, one.2)

/-! Stages 4 and 5. -/

/-- The row level m (R168): the trimmed mean of the nodes' contributions. -/
def rowLevel (nodes : List Nat) : Int :=
  let n := nodes.length
  if n = 0 then 0
  else
    let kept := ((nodes.mergeSort).drop (n / 4)).take (n - 2 * (n / 4))
    rnd (kept.sum : Nat) (n - 2 * (n / 4))

/-- The set B of a row: the 16 blind and 16 dark columns by CM_SRC, and active pixels of classes 14 and 15 (R168). -/
def State.rowNodes (s : State) (t src : Nat) (lv : List Nat) (cls : List Nat) : List Nat :=
  let w := s.par .actCols t
  let blind := src = 0 || src = 2
  let dark := src = 1 || src = 2
  let cols := ((lv.drop w).mapIdx fun i v => if (i < 16 && blind) || (16 ≤ i && dark) then some (16 * v) else none)
  let pix := (lv.take w).zip cls |>.map fun p =>
    if (p.2 = 14 && blind) || (p.2 = 15 && dark) then some (16 * p.1) else none
  (cols ++ pix).filterMap id

/-- One pixel after stage 5. -/
structure Pix5 where
  nc : Int
  sat : Bool
deriving DecidableEq, Repr

/-- Stage 5 of a pixel (R136, R137), on the terms that are switched on. -/
def stage5 (a : Int) (c : Cpr) (sho sbo dts cm : Int) (nlc : Option Int) : Pix5 :=
  let drt := rnd (c.drc * dts) 65536
  let d := a - c.ofs - 2 * sho - sbo - drt - cm
  let e := satNc (rnd (d * c.gain) 262144)
  let n := match nlc with
    | some k => satNc (e.1 + rnd (k * (e.1 * e.1)) 34359738368)
    | none => e
  { nc := n.1, sat := e.2 || n.2 }

/-- NLC of a class (R135): none where the term is off or no bundle gives a table. -/
def State.nlcOf (s : State) (t nlix : Nat) : Option Int :=
  if s.stageOn t 2 then (s.calFor t).map fun b => signed 16 (leAt (tileSection b.nlc t) (2 * nlix) 2) else none

/-- An active row through stages 4 and 5. avg: the frame belongs to an average step, with its CM_SRC. bad and badDpr: the
pixels whose calibration or drift block failed its tag (R197, R304). A saturated ΔTs or CM_row counts for each pixel that
uses it (R120; log 36); a saturation at a reference node counts for none (log 153). -/
def State.activeRow (s : State) (f : FrameTile) (t : Tile) (y : Nat) (bad badDpr : Nat → Bool) (lv : List (Nat × Bool))
    (avg : Option Nat) : Row5 × Nat :=
  let w := s.par .actCols t
  let k := s.dr t
  let recs := (List.range w).map fun x => s.stage4 t f.lo f.hi f.w x y (bad x)
  let cls := recs.map (·.cls)
  let m := rowLevel (s.rowNodes t (avg.getD (s.cmSrc t)) (lv.map (·.1)) cls)
  let cm0 := if s.stageOn t 6 && k.hasRef && !k.cmChanged then m - k.cmBase else 0
  let cm := clampI (-524288) 524287 cm0
  let dts0 := if s.stageOn t 5 then f.tsNow - k.tsFly else 0
  let dts := clampI (-32767) 32767 dts0
  let wide := cm != cm0 || dts != dts0
  let dpr := (List.range w).map fun x => if badDpr x then ⟨0, 0, 0⟩ else s.dprOf t x y
  let pix := recs.mapIdx fun x c =>
    let d := dpr.getD x ⟨0, 0, 0⟩
    let sho := if s.stageOn t 3 && avg.isNone then d.sho else 0
    let sbo := if s.stageOn t 4 && avg.isNone then d.sbo else 0
    stage5 (16 * ((lv.getD x (0, false)).1 : Int)) c sho sbo dts cm (s.nlcOf t c.nlix)
  let inSet (x : Nat) : Bool :=
    bad x || (s.stageOn t 7 && cls.getD x 0 != 0) || (s.stageOn t 9 && k.cands.contains (y * 4096 + x))
  let mAcc := if s.stageOn t 6 then m else 0
  let avgRow : AvgRow :=
    { a := recs.mapIdx fun x c => 16 * ((lv.getD x (0, false)).1 : Int) - c.ofs - mAcc
      m, drc := recs.map fun c => if s.stageOn t 5 then c.drc else 0, gain := recs.map (·.gain), cls }
  let sat := (pix.zipIdx.filter fun p => wide || p.1.sat || (lv.getD p.2 (0, false)).2).length
  ({ y, nc := pix.map (·.nc), bad := (List.range w).map inSet, conf := dpr.map (·.conf)
     avg := if avg.isSome then some avgRow else none }, sat)

/-! A row that arrives over the guyline. -/

/-- Row r of a tile as its nodes enter stage 1 from a clock on (R406, R408). -/
def State.entryOf (s : State) (num label : Nat) (t : Tile) (r clock : Nat) : Entering :=
  { frame := num, label, replay := num == replayNum, tile := t, read := r, row := s.firstRow t + r
    refRow := !s.windowed t && decide (s.par .actRows t ≤ r), next := 0, cols := s.rowCols t, active := s.par .actCols t, clock
    time := s.time, retired := false }

/-- The nodes of a row start to enter stage 1 (R406, R408). -/
def State.enterRow (s : State) (num : Nat) (t : Tile) (r : Nat) : State := s.startRow (s.entryOf num num t r 0)

/-- The words of a tile's row in a replay source frame, and the offset of its plane after the tiles of a mask below it. -/
def State.rowWords (s : State) (t : Nat) : Nat := s.rowCols t * if s.hdr t then 2 else 1
def State.planeBytes (s : State) (t : Nat) : Nat := roundUp 4096 (2 * s.rowWords t * s.tileRows t)
def State.planeOffset (s : State) (mask t : Nat) : Nat :=
  64 + (((List.range t).filter fun i => bitOf mask i).map s.planeBytes).sum

/-- The enabled tiles as a mask, and those that this device reads. -/
def State.enabledMask (s : State) : Nat := maskOf (allTiles.map s.tileOn)
def State.readMask (s : State) : Nat := maskOf (allTiles.map fun t => s.tileOn t && s.owns t)

/-- A row of a captured frame enters the replay area as stage 1 takes it (R249). -/
def State.captureRow (s : State) (num : Nat) (t : Tile) (r : Nat) (words : List Nat) : State :=
  if s.aux.capture == some num then
    s.writeMem (replayAddr + s.aux.dst + s.planeOffset s.readMask t + 2 * s.rowWords t * r)
      ((List.range (s.rowWords t)).flatMap fun i => leBytes 2 (words.getD i 0))
  else s

/-- A row of samples goes through stages 1 to 5 (R115, R122). Reference rows end at the drift stage. -/
def State.processRow (s : State) (num : Nat) (t : Tile) (r : Nat) (words : List Nat) : State :=
  match s.frameOf num with
  | none => s
  | some f =>
    let k := f.tile t
    if f.body.isSome || !k.enabled || s.tileRows t ≤ r || k.missing.contains r then s
    else
      let cols := s.rowCols t
      let tbl := s.linTable t
      let lv := (List.range cols).map fun c => s.linearValue t tbl words c
      let s := (s.captureRow num t r words).enterRow num t r
      let s := s.modFrame num fun f => f.modTile t fun k =>
        { k with arrived := if k.arrived.contains r then k.arrived else k.arrived ++ [r] }
      if !s.windowed t && s.par .actRows t ≤ r then
        (s.leaveRow num t r cols).modFrame num fun f => f.modTile t fun k =>
          { k with refSum := k.refSum + 16 * (lv.map (·.1)).sum, refCnt := k.refCnt + cols, out := k.out ++ [r] }
      else
        let y := s.firstRow t + r
        let bad (x : Nat) : Bool := k.badCpr.contains (y, x / 64 * 64)
        let badDpr (x : Nat) : Bool := k.badDpr.contains (y, x / 128 * 128)
        let avg := if k.avg then (s.dr t).cycle.map (·.cmSrc) else none
        let (row, sat) := s.activeRow k t y bad badDpr lv avg
        let s := s.modFrame num fun f => f.modTile t fun k =>
          { k with rows := k.rows ++ [row], entered := k.entered ++ [(y, s.time)] }
        let s := if sat = 0 then s else (s.bump .pipeSatCnt t sat).perfEvent 6 0x13 sat
        if s.calibrated t then s.perfEvent 6 0x11 (2 * (cprPitch (s.par .actCols t) / 64)) else s

/-! Stage 6. -/

/-- The stage 5 value of a position and whether it is in the defect set; none where it is not available (R123). -/
def FrameTile.at5 (k : FrameTile) (x y : Int) : Option (Int × Bool) :=
  if x < 0 || y < 0 then none
  else
    match k.rows.find? fun r => (r.y : Int) == y with
    | none => none
    | some r =>
      match r.nc[x.toNat]? with
      | none => none
      | some v => some (v, r.bad.getD x.toNat false)

/-- Offsets -r to r. -/
def offsets (r : Nat) : List Int := (List.range (2 * r + 1)).map fun (i : Nat) => (i : Int) - (r : Int)

/-- An active pixel of a row that the frame does not hold is in the defect set by its record, as one of a calibration block that
failed its tag, or as a candidate (R138). -/
def State.setOutside (s : State) (t : Tile) (k : FrameTile) (x y : Int) : Bool :=
  let w : Nat := s.par .actCols t
  let h : Nat := s.par .actRows t
  decide (0 ≤ x) && decide (x < w) && decide (0 ≤ y) && decide (y < h)
    && (k.badCpr.contains (y.toNat, x.toNat / 64 * 64)
      || (s.stageOn t 7 && (s.stage4 t k.lo k.hi k.w x.toNat y.toNat false).cls != 0)
      || (s.stageOn t 9 && (s.dr t).cands.contains (y.toNat * 4096 + x.toNat)))

/-- The defect-set pixels 8-connected to (x, y) inside the 5 x 5 window centred on it. out: the pixels of the set in rows that
the frame does not hold. -/
def FrameTile.cluster (k : FrameTile) (out : Int → Int → Bool) (x y : Int) : List (Int × Int) :=
  let cells := (offsets 2).flatMap fun dy => (offsets 2).map fun dx => (dx, dy)
  let bad := cells.filter fun c => match k.at5 (x + c.1) (y + c.2) with
    | some (_, b) => b
    | none => out (x + c.1) (y + c.2)
  let grow (in_ : List (Int × Int)) : List (Int × Int) :=
    bad.filter fun c => in_.any fun d => (c.1 - d.1).natAbs ≤ 1 && (c.2 - d.2).natAbs ≤ 1
  (List.range 24).foldl (fun in_ _ => grow in_) [(0, 0)]

/-- The bounding box of a cluster is wider or taller than 3 (R139). -/
def FrameTile.tooBig (k : FrameTile) (out : Int → Int → Bool) (x y : Int) : Bool :=
  let c := k.cluster out x y
  let span (f : Int × Int → Int) : Int := (c.map f).foldl max 0 - (c.map f).foldl min 0
  3 ≤ span (·.1) || 3 ≤ span (·.2)

/-- The same-band, available, good neighbours within distance r (R139). -/
def FrameTile.goodNear (k : FrameTile) (spectral : Bool) (x y : Int) (r : Nat) : List Int :=
  ((offsets r).flatMap fun dy => (offsets r).map fun dx => (dx, dy)).filterMap fun c =>
    if c = (0, 0) || (spectral && (c.1 + c.2) % 2 != 0) then none
    else match k.at5 (x + c.1) (y + c.2) with
      | some (v, false) => some v
      | _ => none

/-- The median of R139; the marker where there is no value. -/
def median (vals : List Int) : Int :=
  let v := vals.mergeSort
  let n := v.length
  if n = 0 then marker
  else if n % 2 = 1 then v.getD ((n - 1) / 2) 0
  else rnd (v.getD (n / 2 - 1) 0 + v.getD (n / 2) 0) 2

/-- A position after stage 6: its value, and whether stage 6 replaced it; none where it is not available. -/
def FrameTile.at6 (k : FrameTile) (out : Int → Int → Bool) (spectral : Bool) (x y : Int) : Option (Int × Bool) :=
  match k.at5 x y with
  | none => none
  | some (v, false) => some (v, false)
  | some (_, true) =>
    if k.tooBig out x y then some (marker, false)
    else
      let d := if spectral then 2 else 1
      let near := k.goodNear spectral x y d
      let m := median (if near.isEmpty then k.goodNear spectral x y (2 * d) else near)
      some (m, m != marker)

/-- The value after stage 6 where it is available as a neighbour: not the marker (R121, R123). -/
def FrameTile.near6 (k : FrameTile) (out : Int → Int → Bool) (spectral : Bool) (x y : Int) : Option Int :=
  match k.at6 out spectral x y with
  | some (v, _) => if v = marker then none else some v
  | none => none

/-! Stage 7 (R143 to R145). -/

/-- The weights of one direction: the pair (w x h, w), or none where it is skipped. -/
def FrameTile.direction (k : FrameTile) (out : Int → Int → Bool) (x y v0 dx dy : Int) : Option (Int × Int) :=
  match k.near6 out true (x + dx) (y + dy), k.near6 out true (x + 2 * dx) (y + 2 * dy), k.near6 out true (x + 3 * dx) (y + 3 * dy) with
  | some a1, some a2, some a3 =>
    let g := min 65535 ((a2 - v0).natAbs + (a3 - a1).natAbs)
    let w : Int := (65536 / (1 + g) : Nat)
    some (w * (2 * a1 - v0 - a2), w)
  | _, _, _ => none

/-- The other band at a position with own value v0. -/
def FrameTile.otherBand (k : FrameTile) (out : Int → Int → Bool) (x y v0 : Int) : Int :=
  let dirs : List (Int × Int) := [(1, 0), (-1, 0), (0, 1), (0, -1)]
  let ws := dirs.filterMap fun d => k.direction out x y v0 d.1 d.2
  let num := (ws.map (·.1)).sum
  let den := (ws.map (·.2)).sum
  if 0 < den then (satNc (v0 + rnd num (2 * den).toNat)).1
  else
    let n1 := dirs.filterMap fun d => k.near6 out true (x + d.1) (y + d.2)
    if n1.isEmpty then marker else rnd n1.sum n1.length

/-- The two bands of a pixel after stage 7, and the stage 6 mark. A band that is absent is given as the marker. -/
def State.stage7 (s : State) (t : Tile) (k : FrameTile) (x y : Nat) : Int × Int × Bool :=
  match k.at6 (s.setOutside t k) (s.spectral t) x y with
  | none => (marker, marker, false)
  | some (v, rep) =>
    if !s.spectral t then (v, marker, rep)
    else
      let b1 := (x + y + s.par .specPhase t) % 2 == 0
      let other := if v = marker || !s.stageOn t 10 then marker else k.otherBand (s.setOutside t k) x y v
      if b1 then (v, other, rep) else (other, v, rep)

/-- A tile row after stage 7: the device's own, or the one the pair exchange brought (R333). -/
def State.row7 (s : State) (t : Tile) (k : FrameTile) (y : Nat) : Option Row7 :=
  match k.peer.find? fun r => r.y == y with
  | some r => some r
  | none =>
    match k.rows.find? fun r => r.y == y with
    | none => none
    | some r =>
      let px := (List.range (s.par .actCols t)).map fun x => s.stage7 t k x y
      some { y, nc1 := px.map (·.1), nc2 := px.map (·.2.1), conf := r.conf, replaced := px.map (·.2.2), held := [] }

/-! The scene-based estimator (R169, R170). -/

/-- Block means of a tile's frame by block number (row of blocks x 128 + column of blocks). -/
def State.blockMeans (s : State) (t : Nat) (k : FrameTile) : List (Nat × Int) :=
  let cols := (s.par .actCols t + 31) / 32
  let rows := (s.par .actRows t + 31) / 32
  ((List.range rows).flatMap fun by_ => (List.range cols).map fun bx => (by_, bx)).filterMap fun b =>
    let vals := (k.rows.filter fun r => r.y / 32 == b.1).flatMap fun r =>
      (((r.nc.zip r.bad).drop (32 * b.2)).take 32).filterMap fun p => if p.2 then none else some p.1
    if vals.isEmpty then none else some (b.1 * 128 + b.2, rnd vals.sum vals.length)

/-- The block of a pixel is moving (R169). -/
def State.blockMoves (s : State) (t : Tile) (x y : Nat) : Bool :=
  let b := y / 32 * 128 + x / 32
  match keyGet (s.dr t).blocks1 b, keyGet (s.dr t).blocks2 b with
  | some a, some c => s.parField .sboTh t 31 16 ≤ (a - c).natAbs
  | _, _ => false

/-- The SBO update of a pixel (R170). -/
def State.sboPixel (s : State) (t : Tile) (k : FrameTile) (x y : Nat) : State :=
  let lim : Int := s.parField .sboCfg t 10 0
  match k.at5 x y with
  | some (v, false) =>
    let d : Int := if s.spectral t then 2 else 1
    let q := ([(-d, 0), (d, 0), (0, -d), (0, d)] : List (Int × Int)).filterMap fun o =>
      match k.at5 (x + o.1) (y + o.2) with
      | some (n, false) => some n
      | _ => none
    if !s.blockMoves t x y || q.length < 2 then s
    else
      let r := v - rnd q.sum q.length
      let dead : Int := s.parField .sboTh t 15 0
      let step : Int := s.parField .sboCfg t 14 11
      let p := s.dprOf t x y
      let sbo := if dead < r then p.sbo + step else if r < -dead then p.sbo - step else p.sbo
      if lim < sbo.natAbs then
        (s.putDpr t x y { p with sbo := sbo.sign * lim, conf := p.conf - 1 }).bump .sboClampCnt t
      else if sbo = p.sbo then s else s.putDpr t x y { p with sbo }
  | _ => s

/-- The estimator at the close of a frame: updates, then the block means move on. -/
def State.estimate (s : State) (f : Frame) (t : Tile) : State :=
  let k := f.tile t
  let live := k.enabled && !k.has flagStale
  let s :=
    if live && s.stageOn t 4 && s.calibrated t && !k.has flagUnsettled && !k.has flagRnr
        && s.parField .sboCfg t 10 0 != 0 then
      (k.rows.filter fun r => k.out.contains (r.y - s.firstRow t)).foldl (fun s r =>
        (List.range (s.par .actCols t)).foldl (fun s x => s.sboPixel t k x r.y) s) s
    else s
  s.modDrift t fun d => { d with blocks2 := d.blocks1, blocks1 := if live then s.blockMeans t k else [] }

/-! Average frames and the compute step (R155, R156, R140). -/

def addRows (old : List (Nat × List Int)) (y : Nat) (v : List Int) : List (Nat × List Int) :=
  match keyGet old y with
  | some o => keyPut old y ((o.zip v).map fun p => p.1 + p.2)
  | none => keyPut old y v

/-- One row of a used frame joins the sums. -/
def Cycle.addRow (c : Cycle) (r : Row5) : Cycle :=
  match r.avg with
  | none => c
  | some a =>
    let old := (keyGet c.inSet r.y).getD (r.bad.map fun _ => false)
    { c with
      acc := addRows c.acc r.y a.a, msum := c.msum + a.m, mcount := c.mcount + 1, last := keyPut c.last r.y a
      inSet := keyPut c.inSet r.y ((old.zip r.bad).map fun p => p.1 || p.2)
      s1 := addRows c.s1 r.y r.nc, s2 := addRows c.s2 r.y (r.nc.map fun v => v * v) }

/-- A frame of the average step ends: used, or discarded with the screening abandoned (R155, R140). -/
def State.averageFrame (s : State) (f : Frame) (t : Tile) : State :=
  let k := f.tile t
  match (s.dr t).cycle with
  | none => s
  | some c =>
    if !k.avg || (s.dr t).step ≠ .average then s
    else
      let spoil := k.flags &&& BitVec.ofNat 16 (2 ^ flagLate + 2 ^ flagDropped + 2 ^ flagUnsettled + 2 ^ flagRnr)
      if spoil ≠ 0 then
        let s := s.modCycle t fun c => { c with discarded := c.discarded + 1 }
        if c.discarded = 0 && c.dscr then s.devEvent 0x0501 (leBytes 1 t ++ [0] ++ leBytes 2 spoil.toNat) else s
      else
        s.modCycle t fun c =>
          k.rows.foldl (fun c r => c.addRow r) { c with used := c.used + 1, tsum := c.tsum + k.tsNow, lastFrame := f.num, last := [] }

/-- s, d0 and e0 of a pixel (R156). -/
def refPixel (c : Cycle) (cmNew tsCap acc drc : Int) (gain : Nat) : Int × Int :=
  let s := acc + c.used * cmNew - rnd (drc * (c.tsum - c.used * tsCap)) 65536
  let d0 := rnd s (max 1 c.used)
  (d0, clampI (-524287) 524287 (rnd (d0 * gain) 262144))

/-- The pixels of the capture: row, column, accumulated sum, and the last used frame's coefficients. -/
structure RefPix where
  y : Nat
  x : Nat
  acc : Int
  drc : Int
  gain : Nat
  good : Bool
deriving DecidableEq, Repr

def Cycle.pixels (c : Cycle) : List RefPix :=
  c.acc.flatMap fun e =>
    let a := (keyGet c.last e.1).getD ⟨[], 0, [], [], []⟩
    let bad := (keyGet c.inSet e.1).getD []
    e.2.mapIdx fun x v =>
      { y := e.1, x, acc := v, drc := a.drc.getD x 0, gain := a.gain.getD x 0
        good := a.cls.getD x 0 == 0 && !bad.getD x false }

/-- The new map, row by row: SHO, and whether CONF is 0 for it; with the new common-mode base (R156). None where no
reference pixel is left. -/
def Cycle.compute (c : Cycle) : Option (Int × List (Nat × List (Int × Bool))) :=
  let tsCap := rnd c.tsum (max 1 c.used)
  let cmNew := if c.mcount = 0 then 0 else rnd c.msum c.mcount
  let px := c.pixels
  let good := px.filter (·.good)
  if good.isEmpty then none
  else
    let e0 (p : RefPix) : Int := (refPixel c cmNew tsCap p.acc p.drc p.gain).2
    let ebar := rnd (good.map e0).sum good.length
    let sho (p : RefPix) : Int × Bool :=
      if p.gain = 0 then (0, true)
      else
        let d0 := (refPixel c cmNew tsCap p.acc p.drc p.gain).1
        let v := rnd (d0 - rnd (ebar * 262144) p.gain) 2
        (clampI (-32768) 32767 v, v < -32768 || 32767 < v)
    some (cmNew, c.acc.map fun e => (e.1, (px.filter fun p => p.y == e.1).map sho))

/-- The candidates of a completed screening, in read order: pixel index, reason 1, both (R140). -/
def Cycle.candidates (c : Cycle) (l j : Int) : List (Nat × Bool × Bool) :=
  let px := c.s1.flatMap fun e =>
    let s2 := (keyGet c.s2 e.1).getD []
    let bad := (keyGet c.inSet e.1).getD []
    (e.2.mapIdx fun x v => (e.1 * 4096 + x, v, s2.getD x 0, bad.getD x false)).filter fun p => !p.2.2.2
  let m : Int := c.used
  let n := px.length
  if n = 0 || c.used = 0 then []
  else
    let mu := rnd (px.map (·.2.1)).sum (c.used * n)
    px.filterMap fun p =>
      let noisy := m * (m - 1) * l * l < m * p.2.2.1 - p.2.1 * p.2.1
      let off := m * j < ((p.2.1 - m * mu).natAbs : Int)
      if noisy then some (p.1, false, off) else if off then some (p.1, true, false) else none

/-- The bytes of a candidate list (Tables 4.6, 4.7). -/
def candidateBytes (t frame m : Nat) (all : List (Nat × Bool × Bool)) : Bytes :=
  let listed := all.take 4096
  leBytes 6 frame ++ leBytes 2 listed.length ++ leBytes 1 t ++ leBytes 1 (if 4096 < all.length then 1 else 0) ++ leBytes 1 m
    ++ List.replicate 5 0
    ++ listed.flatMap fun p =>
      leBytes 4 (p.1 % 4096 + 4096 * (p.1 / 4096) + (if p.2.1 then 2 ^ 23 else 0) + if p.2.2 then 2 ^ 24 else 0)

/-- The end of the screening (R141): the list, the count and the event. -/
def State.finishScreening (s : State) (t : Tile) (c : Cycle) : State :=
  if c.dscr && c.discarded = 0 then
    let all := c.candidates (s.par .defDynSigmaLim t) (s.par .defDynOfsLim t)
    let n := min 4096 all.length
    let s := s.writeMem (candAddr t) (candidateBytes t c.lastFrame c.used all)
    let s := s.modDrift t fun d => { d with cands := (all.take 4096).map (·.1), candCnt := n }
    s.devEvent 0x0500 (leBytes 1 t ++ [0] ++ leBytes 2 n ++ leBytes 1 (if 4096 < all.length then 1 else 0))
  else s

end Sys2Proof.Machine
end

