-- ==== Sys2Proof/Machine/Flysheet.lean ====
section
/-!
DEFINITION. The events of the flysheet and the commands FLY_CYCLE, FLY_INHIBIT and DRIFT_STATUS (chapter 5).
-/
namespace Sys2Proof.Machine

/-- FLY_PULSE_END (R150): the pulse has lasted FLY_PULSE; both outputs return low. -/
def execFlyPulseEnd (t : Time) (tile : Tile) (s : State) : Host.Outcome State Fault Refusal :=
  let s := s.advance t
  if (s.dr tile).drive ≠ .off && (s.dr tile).pulseEnd ≤ s.time then .next (s.modDrift tile fun k => { k with drive := .off })
  else .next s

/-- The longest time from the start of a pulse to its edge (Table 5.2). -/
def edgeLimit : Nat := 40000000

/-- A change of FLY_POS is accepted with its timestamp (R151). A closed edge while no cycle runs on the tile, on this device or
on the peer (R334, R337), is fault 5. -/
def State.posAccept (s : State) (tile : Tile) (level : Bool) (ts : Time) : State :=
  if !s.flyEn tile || (s.dr tile).pos == some level then s
  else
    let s := (s.modDrift tile fun k => { k with pos := some level }).injTrigger 0 (some tile.val)
    let k := s.dr tile
    let inTime := ts ≤ k.pulseAt + edgeLimit
    if k.cycle.isNone then (if s.showsClosed tile && !s.peerCycle tile then s.flyFault tile 5 s.time else s)
    else if inTime && ((k.step = .close && s.showsClosed tile) || (k.step = .opening && s.showsOpen tile)) then
      s.modDrift tile fun k => { k with edge := true }
    else s

/-- How long a level stands from the first of 100 consecutive samples, 10 µs apart, to the last (R151). -/
def posFilter : Nat := 990000

/-- The samples of FLY_POS show a level, from one at ts on (R151). A level that has stood for 100 samples is accepted, the one before it
too where it stood as long; the timestamp is that of the first sample. -/
def State.posChange (s : State) (tile : Tile) (level : Bool) (ts : Time) : State :=
  let k := s.dr tile
  if k.posPin = level then (if k.posSince + posFilter ≤ s.time then s.posAccept tile level k.posSince else s)
  else
    let since := max ts k.posSince
    let s := if k.posSince + posFilter < since then s.posAccept tile k.posPin k.posSince else s
    let s := s.modDrift tile fun k => { k with posPin := level, posSince := since }
    if since + posFilter ≤ s.time then s.posAccept tile level since else s

/-- FLY_POS_CHANGE. -/
def execFlyPosChange (t : Time) (tile : Tile) (level : Bool) (ts : Time) (s : State) : Host.Outcome State Fault Refusal :=
  .next ((s.advance t).posChange tile level ts)

/-- By then an edge with a timestamp inside the limit has been accepted. -/
def edgeKnown : Nat := edgeLimit + posFilter

/-- CLOSE_TIMEOUT (Table 5.5, cause 2). -/
def execCloseTimeout (t : Time) (tile : Tile) (s : State) : Host.Outcome State Fault Refusal :=
  let s := s.advance t
  let k := s.dr tile
  if k.step = .close && !k.edge && k.pulseAt + edgeKnown ≤ s.time then .next (s.flyFault tile 2 s.time) else .next s

/-- OPEN_TIMEOUT (Table 5.5, cause 3; R164). -/
def execOpenTimeout (t : Time) (tile : Tile) (s : State) : Host.Outcome State Fault Refusal :=
  let s := s.advance t
  let k := s.dr tile
  if s.time < k.pulseAt + edgeKnown || k.pulseHeld.isSome then .next s
  else if k.step = .opening && !k.edge then .next (s.flyFault tile 3 s.time)
  else if k.openWait then
    let s := s.modDrift tile fun k => { k with openWait := false }
    .next (if s.showsOpen tile || !s.flyEn tile then s else s.flyFault tile 3 s.time)
  else .next s

/-- FLYSHEET_COMPUTE_DONE (R156, R140, R141): the new map is complete and the screening ends. The map is installed at the
tick that ends step 4 (R157). No reference pixel left is an abort. -/
def execFlysheetComputeDone (t : Time) (tile : Tile) (s : State) : Host.Outcome State Fault Refusal :=
  let s := s.advance t
  match (s.dr tile).step, (s.dr tile).cycle with
  | .compute, some c =>
    if c.map.isSome then .next s
    else
      match c.compute with
      | none => .next (s.flyAbort tile 10 s.time)
      | some (base, m) =>
        .next ((s.modCycle tile fun c => { c with map := some m, cmNew := base }).finishScreening tile c)
  | _, _ => .next s

/-- INHIBIT_WINDOW_OPEN (R161): from here on the time base lies inside the window, and a running cycle finishes. -/
def execInhibitWindowOpen (t : Time) (_tile : Tile) (s : State) : Host.Outcome State Fault Refusal := .next (s.advance t)

/-- INHIBIT_WINDOW_END (R160, R161): the window is over; the tile is eligible again at the next tick. -/
def execInhibitWindowEnd (t : Time) (tile : Tile) (s : State) : Host.Outcome State Fault Refusal :=
  let s := s.advance t
  match (s.dr tile).inhibit with
  | some ⟨_, some e, _⟩ => if e ≤ s.time then .next (s.modDrift tile fun k => { k with inhibit := none }) else .next s
  | _ => .next s

/-- FLY_TMAX_EXPIRY (R159): FLY_TMAX seconds have passed since the last reference; the reason TMAX follows at the next tick. -/
def execFlyTmaxExpiry (t : Time) (tile : Tile) (s : State) : Host.Outcome State Fault Refusal :=
  let s := s.advance t
  let k := s.dr tile
  if k.hasRef && s.tmaxPassed s.time tile then
    .next (s.modDrift tile fun k => { k with tmaxDue := true })
  else .next s

/-! Commands (R162, R177). -/

/-- The tiles of a mask. -/
def tilesIn (mask : Nat) : List Tile := allTiles.filter fun t => bitOf mask t.val

/-- The fault exit of R165: the fault is cleared and an open pulse starts. -/
def State.clearFault (s : State) (t : Tile) : State :=
  if (s.dr t).inFault then
    (s.modDrift t fun k => { k with inFault := false, step := .isOpen, stale := .untilPulse, openWait := false }).drive t .isOpen
      s.time (s.flyPulse t)
  else s

/-- HOST is set for a tile without a running cycle. -/
def State.requestCycle (s : State) (force : Bool) (t : Tile) : State :=
  if (s.dr t).cycle.isSome || (s.dr t).inFault then s
  else s.modDrift t fun k => { k with reasons := k.reasons ||| 0b10000, force := k.force || force }

/-- The tiles of a mask that the peer owns: requests on them go to it (R337). -/
def State.peerTiles (s : State) (mask : Nat) : Nat :=
  maskOf (allTiles.map fun t => bitOf mask t.val && s.pair.mode == .paired && !s.owns t)

/-- FORCE of a request on a tile of the peer: the LEAD grants by it (R160, R337). -/
def State.requestPeer (s : State) (force : Bool) (t : Tile) : State :=
  if s.peerCycle t || (s.dr t).inFault then s else s.modDrift t fun k => { k with force := k.force || force }

/-- A FLY_CYCLE request goes to the owner of tiles, FORCE and CLEAR_FAULT with it. A PARTNER tells its LEAD of FORCE on tiles of its
own as well, since the LEAD grants their starts. -/
def State.passCycle (s : State) (mask flags : Nat) : State :=
  let tiles := if s.isPartner && flags = 1 then mask else s.peerTiles mask
  let s := if bitOf flags 1 then s else (tilesIn (s.peerTiles mask)).foldl (fun s t => s.requestPeer (bitOf flags 0) t) s
  if tiles = 0 then s else s.pairSend .request ([0] ++ leBytes 1 tiles ++ leBytes 1 flags)

/-- FLY_CYCLE with CLEAR_FAULT: the named tiles of this device leave fault as the command starts (log 52); for one of the peer the
command waits until a record of its owner shows it out of fault (R162, R337). -/
def State.clearFaults (s : State) (x : Ctx) (c : Cmd) (mask flags : Nat) : State :=
  let peer := s.peerTiles mask
  let s := ((tilesIn (mask &&& (255 - peer))).foldl State.clearFault s).passCycle mask flags
  let left := maskOf (allTiles.map fun t => bitOf peer t.val && (s.dr t).inFault)
  if left = 0 then s.complete x c .done else s.await x c (.flyClear left)

/-- FLY_CYCLE (R162). On a tile of the peer the owner acts, and its tile state records show the outcome (R337). A flysheet of this
device is reached over the guyline (R18, R43, R282). -/
def State.flyCycle (s : State) (x : Ctx) (c : Cmd) : State :=
  let mask := leAt c.payload 0 1
  let flags := leAt c.payload 1 1
  let force := bitOf flags 0
  let named := tilesIn mask
  if c.payload.length ≠ 4 || 4 ≤ flags || leAt c.payload 2 2 ≠ 0 then s.complete x c .badParam
  else if named.any fun t => !s.flyEn t || !s.tileOn t then s.complete x c .badParam
  else if !force && named.any s.inhibited then s.complete x c .notPermitted
  else if !s.fdieUp && mask &&& (255 - s.peerTiles mask) ≠ 0 then s.complete x c .failedFault
  else if bitOf flags 1 then s.clearFaults x c mask flags
  else
    let faulted := maskOf (allTiles.map fun t => bitOf mask t.val && (s.dr t).inFault)
    let w := Wait.fly mask 0 0 0 faulted
    let s := (((tilesIn (mask &&& (255 - s.peerTiles mask))).foldl (fun s t => s.requestCycle force t) s).passCycle mask flags).await x c w
    match flyResult w with
    | some (st, r) => s.complete x c st r
    | none => s

def execFlyCycle (t : Time) (x : Ctx) (tag : BitVec 11) (s : State) : Host.Outcome State Fault Refusal :=
  .next (s.command t x tag 0x4001 fun s c => s.flyCycle x c)

/-- An inhibit window of a delay and a length in seconds; a length of 0 clears it, 0xFFFF lasts until it is cleared (Table 5.4). -/
def inhibitOf (now : Time) (delay len : Nat) : Option Inhibit :=
  let start := now + delay * 1000000000
  if len = 0 then none
  else some { start, stop := if len = 0xFFFF then none else some (start + len * 1000000000), raised := false }

/-- FLY_INHIBIT (R161, Table 5.4). The owner of a tile of the peer sets the window too (R337). -/
def State.flyInhibit (s : State) (x : Ctx) (c : Cmd) : State :=
  let mask := leAt c.payload 0 1
  let delay := leAt c.payload 4 2
  let len := leAt c.payload 6 2
  if c.payload.length ≠ 8 || leAt c.payload 1 3 ≠ 0 then s.complete x c .badParam
  else if !s.fdieUp && mask &&& (255 - s.peerTiles mask) ≠ 0 then s.complete x c .failedFault
  else
    let s := (tilesIn mask).foldl (fun s t => s.modDrift t fun k => { k with inhibit := inhibitOf s.time delay len }) s
    let peer := s.peerTiles mask
    let s := if peer = 0 then s else s.pairSend .request ([1] ++ leBytes 1 peer ++ leBytes 2 delay ++ leBytes 2 len)
    s.complete x c .done (maskOf (allTiles.map fun t => bitOf mask t.val && ((s.dr t).cycle.isSome || s.peerCycle t)))

def execFlyInhibit (t : Time) (x : Ctx) (tag : BitVec 11) (s : State) : Host.Outcome State Fault Refusal :=
  .next (s.command t x tag 0x4002 fun s c => s.flyInhibit x c)

/-- FLY_STATE[3:0]. -/
def FlyStep.code : FlyStep → Nat
  | .off => 0
  | .isOpen => 1
  | .close => 2
  | .closeSettle => 3
  | .average => 4
  | .compute => 5
  | .opening => 6
  | .openSettle => 7
  | .fault => 8

/-- FLY_STATE[t] (Table 5.8). -/
def State.flyState (s : State) (t : Tile) : Nat :=
  let k := s.dr t
  k.step.code + 16 * k.cause + 256 * s.confOf t
    + 4096 * maskOf [s.inhibited t, k.dueSince.isSome, k.moving, k.degraded] + 65536 * k.reasons.toNat

/-- Seconds until the window ends, rounded up (Table 5.7). -/
def State.inhLeft (s : State) (t : Tile) : Nat :=
  match (s.dr t).inhibit with
  | none => 0
  | some w => match w.stop with
    | none => 0xFFFF
    | some e => min 0xFFFE ((e - s.time + 999999999) / 1000000000)

/-- The drift status record of Table 5.7. -/
def State.driftRecord (s : State) (t : Tile) : Bytes :=
  let k := s.dr t
  leBytes 6 s.tick.frameNum ++ leBytes 1 t
    ++ leBytes 1 (maskOf [k.moving, s.inhibited t, k.inFault, k.degraded, k.cycle.isSome || s.peerCycle t, k.dueSince.isSome])
    ++ leBytes 1 (s.confOf t + 16 * k.step.code) ++ leBytes 1 k.cause ++ leBytes 2 (unsigned 16 k.tsNow)
    ++ leBytes 2 (unsigned 16 k.tsFly) ++ leBytes 2 k.exc ++ leBytes 2 k.rateMk ++ leBytes 6 k.lastRef ++ leBytes 3 k.refRow
    ++ [0] ++ leBytes 2 (s.inhLeft t) ++ [0, 0]

/-- DRIFT_STATUS (R177). -/
def execDriftStatus (t : Time) (x : Ctx) (tag : BitVec 11) (sg : Nat) (s : State) : Host.Outcome State Fault Refusal :=
  .next (s.command t x tag 0x4003 fun s c =>
    if c.payload.isEmpty then s.complete x c .badParam
    else
      let named := tilesIn (leAt c.payload 0 1)
      s.writeRecord x c sg (named.flatMap s.driftRecord) named.length)

end Sys2Proof.Machine
end

