-- ==== Sys2Proof/Machine/Radiometry.lean ====
section
/-!
DEFINITION. Stages 8 and 9 (R200 to R215), and a mosaic row that is complete (R217 to R219): delivered, held or abandoned
tile rows.
-/
namespace Sys2Proof.Machine

/-! binary32 operands of stage 8. -/

def f32one : Nat := 0x3F800000
def f32mul (a b : Nat) : Nat := binary32.mul a b
def f32div (a b : Nat) : Nat := binary32.div a b
def f32add (a b : Nat) : Nat := binary32.add a b
def f32sub (a b : Nat) : Nat := binary32.sub a b
def f32pos (a : Nat) : Bool := binary32.isFinite a && binary32.lt 0 a

/-- The integer nearest to a finite binary32 value, half away from zero; none where it is no number. -/
def roundAway (a : Nat) : Option Int :=
  match binary32.val a with
  | .fin n m e =>
    let v : Int := if 0 ≤ e then m * (2 ^ e.toNat : Nat) else rnd m (2 ^ (-e).toNat)
    some (if n then -v else v)
  | _ => none

/-- floor of a finite binary32 value. -/
def floorF (a : Nat) : Int :=
  match binary32.val a with
  | .fin n m e =>
    let k : Int := if n then -m else m
    if 0 ≤ e then k * (2 ^ e.toNat : Nat) else k / (2 ^ (-e).toNat : Nat)
  | _ => 0

/-- A band's five fields in a RAD section (Table 7.1). -/
structure Band where
  k : Nat
  l0 : Nat
  a : Nat
  b : Nat
  c : Nat
deriving DecidableEq, Repr

def bandOf (rad : Bytes) (band : Nat) : Band :=
  let f (i : Nat) := leAt rad (4 + 20 * band + 4 * i) 4
  { k := f 0, l0 := f 1, a := f 2, b := f 3, c := f 4 }

/-- L_b (R203). -/
def Band.radiance (b : Band) (nc : Int) : Nat := f32add (f32mul (binary32.ofInt nc) b.k) b.l0

/-- B / ln(A / (L - C) + 1) (R203, R204). -/
def Band.temperature (b : Band) (l : Nat) : Nat := f32div b.b (lnF (f32add (f32div b.a (f32sub l b.c)) f32one))

/-- The band radiance P_b(T) (R203). -/
def Band.planck (b : Band) (t : Nat) : Nat := f32add (f32div b.a (f32sub (expF (f32div b.b t)) f32one)) b.c

/-! Scene entries and the emissivity map (R207, R208). -/

/-- The scene values of a pixel in binary32: ε, τ, T_refl, T_atm. -/
structure Scene where
  eps : Nat
  tau : Nat
  refl : Nat
  atm : Nat
deriving DecidableEq, Repr

/-- Entry i of the copy that the latest tick made of the active slot (R207). -/
def State.sceneEntry (s : State) (i : Nat) : Bytes := sliceB (16 * i) 16 s.scene

/-- Entry covers the mosaic position. -/
def covers (e : Bytes) (x y : Nat) : Bool :=
  let w := leAt e 4 2
  w != 0 && leAt e 0 2 ≤ x && x < leAt e 0 2 + w && leAt e 2 2 ≤ y && y < leAt e 2 2 + leAt e 6 2

/-- The bytes of the entry that applies to a mosaic position. -/
def State.entryAt (s : State) (x y : Nat) : Bytes :=
  match (List.range 63).find? fun i => covers (s.sceneEntry i) x y with
  | some i => s.sceneEntry i
  | none => s.sceneEntry 63

/-- A Q1.15 code in binary32. -/
def q15 (v : Nat) : Nat := binary32.round false v (-15)
/-- A code in units of 0.05 K in binary32 kelvin. -/
def kelvin20 (v : Nat) : Nat := f32div (binary32.ofInt v) (binary32.ofInt 20)

def State.sceneAt (s : State) (x y : Nat) : Scene :=
  let e := s.entryAt x y
  let eps := q15 (leAt e 8 2)
  let code := if s.par .radEpsMode = 1 then
      leAt (s.readMem (mapAddr (s.par .radMapSel) + y * roundUp 64 s.tick.mosaicW + x) 1) 0 1
    else 0
  { eps := if code = 0 then eps else f32div (binary32.ofInt code) (binary32.ofInt 255)
    tau := q15 (leAt e 10 2), refl := kelvin20 (leAt e 12 2), atm := kelvin20 (leAt e 14 2) }

/-! Stage 8. -/

/-- A stage 8 result: the binary32 kelvin value (none: marker), whether it counts in RAD_MARK_CNT, and in RAD_CLAMP_CNT. -/
structure Px8 where
  v : Option Nat
  mark : Bool
  clamp : Bool
deriving DecidableEq, Repr

/-- R210: a result that is not finite or not above 0 K is the marker, and counts. -/
def result8 (v : Nat) : Px8 := if f32pos v then ⟨some v, false, false⟩ else ⟨none, true, false⟩

/-- The object temperature (R204). -/
def Band.object (b : Band) (sc : Scene) (l : Nat) : Nat :=
  let one := f32one
  let n := f32sub (f32sub l (f32mul (f32sub one sc.tau) (b.planck sc.atm)))
    (f32mul (f32mul sc.tau (f32sub one sc.eps)) (b.planck sc.refl))
  b.temperature (f32div n (f32mul sc.tau sc.eps))

/-- The ratio temperature (R205). The marker of a G_b that is not greater than 0 counts nowhere (log 139). -/
def ratioTemp (rad : Bytes) (sc : Scene) (nc1 nc2 : Int) : Px8 :=
  let g (i : Nat) (nc : Int) : Nat :=
    let b := bandOf rad i
    f32sub (f32div (f32sub (b.radiance nc) (f32mul (f32sub f32one sc.tau) (b.planck sc.atm))) sc.tau) b.c
  let g1 := g 0 nc1
  let g2 := g 1 nc2
  if !binary32.lt 0 g1 || !binary32.lt 0 g2 then ⟨none, false, false⟩
  else
    let x := f32div (f32sub (f32div g1 g2) (leAt rad 44 4)) (leAt rad 48 4)
    let rt (i : Nat) : Nat := leAt rad (64 + 4 * i) 4
    if binary32.lt x 0 then { result8 (rt 0) with clamp := true }
    else if binary32.lt (binary32.ofInt 4095) x then { result8 (rt 4095) with clamp := true }
    else if !binary32.isFinite x then ⟨none, true, false⟩
    else
      let i := (floorF x).toNat
      if i = 4095 then result8 (rt 4095)
      else
        let f := f32sub x (binary32.ofInt i)
        result8 (f32add (rt i) (f32mul f (f32sub (rt (i + 1)) (rt i))))

/-- Stage 8 of a pixel (R200, R206). An uncalibrated ratio quantity takes band B1 (log 138). -/
def State.stage8 (s : State) (t : Nat) (nc1 nc2 : Int) (mx my : Nat) : Px8 :=
  let qty := s.par .radQty t
  let nc := if qty = 1 || qty = 4 then nc2 else nc1
  match s.calFor t with
  | none =>
    let v := if s.spectral t then nc else nc1
    if v = marker then ⟨none, false, false⟩
    else result8 (f32add 0x43960000 (f32mul (binary32.ofInt v) 0x3C23D70A))
  | some b =>
    let rad := tileSection b.rad t
    if qty = 2 then
      if nc1 = marker || nc2 = marker then ⟨none, false, false⟩ else ratioTemp rad (s.sceneAt mx my) nc1 nc2
    else if nc = marker then ⟨none, false, false⟩
    else
      let band := bandOf rad (if qty = 1 || qty = 4 then 1 else 0)
      let l := band.radiance nc
      if qty ≤ 1 then result8 (band.object (s.sceneAt mx my) l) else result8 (band.temperature l)

/-! Stage 9. -/

/-- S of R211. -/
def State.tqScale (s : State) : Nat := if s.parBit .outMvFmt 0 2 then 20 else 100

/-- q of a stage 8 result (R211). -/
def State.quantise (s : State) (v : Option Nat) : Nat :=
  match v with
  | none => 65535
  | some a => match roundAway (f32mul a (binary32.ofInt s.tqScale)) with
    | some q => (clampI 0 65534 q).toNat
    | none => 65534

/-- The temporal filter of a pixel (R212): its output and its history afterwards. -/
def temporal (kmin lo hi x : Nat) (hist : Option Nat) : Nat × Option Nat :=
  if x = 65535 then (65535, hist)
  else
    match hist with
    | none => (x, some x)
    | some y =>
      let d := ((x : Int) - y).natAbs
      let k := if d ≤ lo then kmin else if hi ≤ d then 256 else kmin + (256 - kmin) * (d - lo) / (hi - lo)
      let out := ((y : Int) + rnd (k * ((x : Int) - y)) 256).toNat
      (out, some out)

/-- The temporal filter runs on the tile in a frame. -/
def State.tfOn (s : State) (f : Frame) (t : Nat) : Bool := s.parBit .filtEn t 0 && !f.tfStopped

/-- The temporal outputs of a row with the histories afterwards. -/
def State.tfRow (s : State) (f : Frame) (t y : Nat) (q : List Nat) : List (Nat × Option Nat) :=
  if s.tfOn f t then
    q.mapIdx fun x v =>
      temporal (s.par .filtTfK t) (s.parField .filtTfTh t 15 0) (s.parField .filtTfTh t 31 16) v
        (keyGet s.history (histKey t y x))
  else q.map fun v => (v, none)

/-- The spatial filter of column x over three rows (R214); a row that is not there is empty. -/
def spatial (th : Nat) (rows : List (List Nat)) (mid : List Nat) (x : Nat) : Nat :=
  let c := mid.getD x 65535
  if c = 65535 then 65535
  else
    let near : List Nat := rows.flatMap fun (r : List Nat) =>
      ((List.range 3).filterMap fun (i : Nat) => if x + i = 0 then none else r[x + i - 1]?).filter fun v =>
        v != 65535 && ((v : Int) - c).natAbs ≤ th
    (rnd (near.sum : Nat) near.length).toNat

/-! A tile row through stages 8 and 9. -/

/-- A pixel of a row before the temporal filter. -/
structure PxRow where
  px : Px8
  q : Nat
  conf : Nat
  rep : Bool
  nc : Int
  held : Bool
deriving DecidableEq, Repr

/-- The pixels of tile row y, which lies in mosaic row my. A held pixel of an exchanged row takes no part in the filters (R83,
Table 11.6). -/
def State.row8 (s : State) (t : Tile) (k : FrameTile) (y my : Nat) : Option (List PxRow) :=
  (s.row7 t k y).map fun r =>
    (r.nc1.zipIdx).map fun e =>
      let n2 := r.nc2.getD e.2 marker
      let p := s.stage8 t e.1 n2 (s.placeCol t e.2) my
      let held := r.held.getD e.2 false
      { px := p, q := if held then 65535 else s.quantise p.v, conf := min (r.conf.getD e.2 0) k.conf
        rep := r.replaced.getD e.2 false, nc := if e.1 = marker then n2 else e.1, held }

/-- The temporal outputs of a tile's active row i: kept from before, or formed now. -/
def State.tfOut (s : State) (f : Frame) (t : Tile) (i : Nat) : List Nat :=
  let k := f.tile t
  let y := s.firstRow t + i
  match k.filt.find? fun e => e.1 == y with
  | some e => e.2
  | none => match s.row8 t k y (s.placeRow t i) with
    | some r => (s.tfRow f t y (r.map (·.q))).map (·.1)
    | none => []

/-- What becomes of a tile's row when its mosaic row is complete. -/
inductive RowFate where | deliver | hold | abandon | notYet
deriving DecidableEq, Repr

/-- The row lies where the tile's data are dropped (R71, R78). -/
def FrameTile.dropped (k : FrameTile) (i : Nat) : Bool := match k.dropFrom with | some d => decide (d ≤ i) | none => false

/-- A row of the tile, by its index i among the active rows read, is there or will not come. -/
def State.settled (s : State) (t : Tile) (k : FrameTile) (i : Nat) : Bool :=
  let y := s.firstRow t + i
  s.mosaicRows t ≤ i || k.missing.contains i || k.dropped i
    || (k.rows.any fun r => r.y == y) || k.peer.any fun r => r.y == y

/-- How many rows on either side stages 6 and 7 look at (R116): stage 6 also where both of its stages are off and a row holds a
pixel of the defect set, by a failed block or a marker (R138, R139). -/
def State.reach7 (s : State) (t : Tile) (k : FrameTile) : Nat :=
  (if s.stageOn t 7 || s.stageOn t 9 || (k.rows.any fun r => r.bad.any id) then (if s.spectral t then 4 else 2) else 0)
    + if s.spectral t && s.stageOn t 10 then 3 else 0

/-- How many rows on either side stages 6, 7 and 9 look at (R116); an exchanged row has stages 6 and 7 behind it (R333). -/
def State.reach (s : State) (t : Tile) (k : FrameTile) (own : Bool) : Nat :=
  (if own then s.reach7 t k else 0) + if s.parBit .filtEn t 1 then 1 else 0

/-- The rows within a reach of row i are there or will not come. -/
def State.settledNear (s : State) (t : Tile) (k : FrameTile) (i reach : Nat) : Bool :=
  (List.range (2 * reach + 1)).all fun j => i + j < reach || s.settled t k (i + j - reach)

/-- The region is STALE in the frame; of a tile of the peer also if its tile state record says so (R158, R334). -/
def FrameTile.staleHere (k : FrameTile) : Bool :=
  k.has flagStale || (!k.own && (match k.block with | some b => bitOf (leAt b 0 2) flagStale | none => false))

/-- The fate of the tile's row i: a STALE region is held (R158), also without rows on a tile of the peer, which sends none (R333);
a missing row is held (R83), a dropped row is abandoned (R78), as is every row of a tile in FAULT (R71), and a row is delivered
once it and the rows it looks at are there or will not come. -/
def State.rowFate (s : State) (t : Tile) (k : FrameTile) (i : Nat) : RowFate :=
  let y := s.firstRow t + i
  let own := k.rows.any fun r => r.y == y
  let here := own || k.peer.any fun r => r.y == y
  if (s.tile t).faulted then .abandon
  else if k.missing.contains i then .hold
  else if (here || !k.own) && k.staleHere then .hold
  else if here && s.settledNear t k i (s.reach t k own) then .deliver
  else if k.dropped i then .abandon
  else .notYet

/-- A held pixel: the bytes last delivered at the position, with the held bit set afresh (R83, R218). -/
def State.heldPix (s : State) (x y : Nat) : OutPix :=
  let p := (keyGet s.held (y * 32768 + x)).getD { tq := 0, fp := 0, q9 := 0, quality := 0 }
  { p with quality := (p.quality ||| 0x40) }

/-- The held pixels of a tile's row. -/
def State.heldRow (s : State) (t : Tile) (my : Nat) : List (Nat × OutPix) :=
  (List.range (s.par .actCols t)).map fun c => (s.placeCol t c, s.heldPix (s.placeCol t c) my)

/-- The value that the FP32 format delivers (Table 7.4), from the stage 8 result and the stage 9 output. -/
def State.fpValue (s : State) (v : Option Nat) (q9 : Nat) : Nat :=
  if s.parBit .outMvFmt 0 3 then
    (if q9 = 65535 then 0x7FC00000 else f32div (binary32.ofInt q9) (binary32.ofInt s.tqScale))
  else v.getD 0x7FC00000

/-- The TQ16 value (Table 7.4), from the quantised value before and after the filters. -/
def State.tqValue (s : State) (q q9 : Nat) : Nat := if s.parBit .outMvFmt 0 3 then q9 else q

/-- The columns of a row that this device's stage 7 has demosaiced (Table 14.1). -/
def State.demosaiced (s : State) (k : FrameTile) (t : Tile) : Nat := if k.own && s.spectral t then s.par .actCols t else 0

/-- An active row of this device's own leaves stage 10, if its nodes entered: its demosaiced columns count, and its nodes are retired
(R406, Table 14.1). -/
def State.retireRow (s : State) (f : Frame) (t : Tile) (i : Nat) : State :=
  if (f.tile t).rows.any fun r => r.y == s.firstRow t + i then
    (s.perfEvent 7 0x12 (s.demosaiced (f.tile t) t)).leaveRow f.num t i (s.rowCols t)
  else s

/-- A delivered row: outputs, histories and statistics. A held pixel repeats the bytes last delivered at its place and leaves
histories and counts alone (Table 11.6). -/
def State.deliverRow (s : State) (f : Frame) (t : Tile) (i my : Nat) : State × List (Nat × OutPix) :=
  let k := f.tile t
  let y := s.firstRow t + i
  match s.row8 t k y my with
  | none => (s, s.heldRow t my)
  | some px =>
    let tf := s.tfRow f t y (px.map (·.q))
    let mid := match k.filt.find? fun e => e.1 == y with
      | some e => e.2
      | none => tf.map (·.1)
    let near := if s.parBit .filtEn t 1 then
        [if i = 0 then [] else s.tfOut f t (i - 1), mid, if i + 1 < s.mosaicRows t then s.tfOut f t (i + 1) else []]
      else []
    let out := px.mapIdx fun x p =>
      let q9 := if s.parBit .filtEn t 1 then spatial (s.par .filtSfTh t) near mid x else mid.getD x 65535
      let o : OutPix :=
        { tq := s.tqValue p.q q9, fp := BitVec.ofNat 32 (s.fpValue p.px.v q9), q9
          quality := p.conf + (if p.rep then 16 else 0) + if p.px.v.isNone then 32 else 0 }
      (s.placeCol t x, if p.held then s.heldPix (s.placeCol t x) my else o)
    let px := px.filter fun p => !p.held
    let hist := if s.tfOn f t then
        tf.zipIdx.foldl (fun h e => match e.1.2 with | some v => keyPut h (histKey t y e.2) v | none => h) s.history
      else s.history
    let held := out.foldl (fun h e => if bitOf e.2.quality 6 then h else keyPut h (my * 32768 + e.1) e.2) s.held
    let marks := (px.filter (·.px.mark)).length
    let clamps := (px.filter (·.px.clamp)).length
    let lost := (px.filter fun p => p.nc == marker).length
    let s : State := { s with history := hist, held }
    let s := if s.tfOn f t then s.perfEvent 8 0x12 px.length else s
    let s := ((s.bump .radMarkCnt t marks).perfEvent 8 0x10 marks).perfEvent 7 0x11 lost
    let s := ((s.bump .radClampCnt t clamps).perfEvent 8 0x11 clamps).perfEvent 7 0x10 (px.filter (·.rep)).length
    let s := s.retireRow f t i
    let s := s.modFrame f.num fun f => f.modTile t fun k =>
      { k with out := k.out ++ [i], marks := k.marks + lost, filt := k.filt ++ [(y, mid)] }
    (s, out)

/-- The row has left the pipeline by an instant: L_p row steps of 3.3 µs after it entered (R36, R84). -/
def State.leftBy (s : State) (t : Tile) (k : FrameTile) (i : Nat) (cut : Time) : Bool :=
  k.entered.any fun e => e.1 == s.firstRow t + i && decide (e.2 + s.tick.latRows * 3300 ≤ cut)

/-- The fate of a row; at a cut, a row that is still in the pipeline is abandoned although its inputs are there (R38, R84). -/
def State.fateAt (s : State) (t : Tile) (k : FrameTile) (i : Nat) (cut : Option Time) : RowFate :=
  let fate := s.rowFate t k i
  match cut with
  | none => fate
  | some c =>
    let stays := k.missing.contains i || (!k.own && k.staleHere)
    if (fate == .deliver || fate == .hold) && !stays && !s.leftBy t k i c then .abandon else fate

/-- A tile's part of a mosaic row that is complete, or that the cut ends (R38). The region of a tile in FAULT holds void
pixels (R71). -/
def State.finishTileRow (s : State) (num : Nat) (t : Tile) (i my : Nat) (cut : Option Time) : State × List (Nat × OutPix) :=
  match s.frameOf num with
  | none => (s, [])
  | some f =>
    match s.fateAt t (f.tile t) i cut with
    | .deliver => s.deliverRow f t i my
    | .hold =>
      let s := if (f.tile t).missing.contains i then s
        else (s.retireRow f t i).modFrame num fun f => f.modTile t fun k => { k with out := k.out ++ [i] }
      (s, s.heldRow t my)
    | _ => (s.modFrame num fun f => f.modTile t fun k => k.flag flagDropped, if (s.tile t).faulted then [] else s.heldRow t my)

/-- The enabled tiles of a mosaic row with the index of their active row. -/
def State.tilesOfRow (s : State) (f : Frame) (my : Nat) : List (Tile × Nat) :=
  allTiles.filterMap fun t => if (f.tile t).enabled then (s.rowIn t my).map fun i => (t, i) else none

/-- The pixels of a mosaic row that enter the statistics (R230). -/
def statRow (f : Frame) (t : Tile) (my : Nat) (px : List (Nat × OutPix)) : List StatPix :=
  if (f.tile t).has flagStale then []
  else px.filterMap fun e =>
    let o := e.2
    if bitOf o.quality 5 || bitOf o.quality 6 || o.tq = 65535 then none
    else some { x := e.1, y := my, tile := t, q := o.tq, v := o.fp, conf := o.quality % 16 }

end Sys2Proof.Machine
end

