-- ==== Sys2Proof/Machine/Auxiliary.lean ====
section
/-!
DEFINITION. The auxiliary path: submissions (R241 to R243) and the auxiliary stages (R244, R245).
-/
namespace Sys2Proof.Machine

/-! The stages of a camera frame. -/

/-- A camera frame under way: its size, configuration and tables. -/
structure AuxIn where
  w : Nat
  h : Nat
  bits : Nat
  phase : Nat
  mono : Bool
  dyn : Nat
  black : List Nat
  ccm : List Nat
  table : Bytes
  raw : Bytes

def sat16 (v : Int) : Int := clampI 0 65535 v

/-- Channel of a position (Table 8.2). -/
def chan (x y : Int) : Nat := (2 * (y % 2) + x % 2).toNat

/-- Stage 1, black level; v = raw x 2^(16 - b). -/
def AuxIn.v1 (a : AuxIn) (x y : Int) : Int :=
  let e := if a.bits = 8 then 1 else 2
  let o := y.toNat * roundUp 64 (a.w * e) + x.toNat * e
  let raw := leAt a.raw o e % 2 ^ a.bits
  max ((raw * 2 ^ (16 - a.bits) : Nat) - (a.black.getD (chan x y) 0 : Int)) 0

def AuxIn.inside (a : AuxIn) (x y : Int) : Bool := 0 ≤ x && x < a.w && 0 ≤ y && y < a.h

/-- The pixel is in DEF_LIST. -/
def AuxIn.listed (a : AuxIn) (x y : Int) : Bool :=
  (List.range (min 1024 (leAt a.table 25600 4))).any fun i =>
    let e := leAt a.table (25604 + 4 * i) 4
    (bitsOf e 11 0 : Int) == x && (bitsOf e 22 12 : Int) == y

/-- Stage 2, defects. -/
def AuxIn.v2 (a : AuxIn) (x y : Int) : Int :=
  let own := a.v1 x y
  if a.listed x y then
    let near := ([(-2, 0), (2, 0), (0, -2), (0, 2)] : List (Int × Int)).filterMap fun o =>
      if a.inside (x + o.1) (y + o.2) && !a.listed (x + o.1) (y + o.2) then some (a.v1 (x + o.1) (y + o.2)) else none
    if near.isEmpty then own else median near
  else if a.dyn = 0 then own
  else
    let d : List Int := [-2, 0, 2]
    let near := (d.flatMap fun j => d.map fun i => (i, j)).filterMap fun o =>
      if o != (0, 0) && a.inside (x + o.1) (y + o.2) then some (a.v1 (x + o.1) (y + o.2)) else none
    match near with
    | [] => own
    | n :: r =>
      let top := r.foldl max n
      let low := r.foldl min n
      if top + a.dyn < own then top else if own < low - a.dyn then low else own

/-- Position in the shading grid: node and fraction (R244). -/
def gridPos (x w n : Nat) : Nat × Nat :=
  let p := x * n * 256 / max 1 (w - 1)
  if p = n * 256 then (n - 1, 256) else (p / 256, p % 256)

/-- Stage 3, lens shading. -/
def AuxIn.v3 (a : AuxIn) (x y : Int) : Int :=
  let gx := gridPos x.toNat a.w 63
  let gy := gridPos y.toNat a.h 47
  let node (i j : Nat) : Nat := leAt a.table (6144 * chan x y + 128 * j + 2 * i) 2
  let g := rnd ((256 - gx.2) * (256 - gy.2) * node gx.1 gy.1 + gx.2 * (256 - gy.2) * node (gx.1 + 1) gy.1
    + (256 - gx.2) * gy.2 * node gx.1 (gy.1 + 1) + gx.2 * gy.2 * node (gx.1 + 1) (gy.1 + 1) : Nat) 65536
  sat16 (rnd (a.v2 x y * g) 4096)

/-- The nearest same-colour coordinate inside, along the axis. -/
def fold2 (n : Nat) (x : Int) : Int := if x < 0 then x % 2 else if (n : Int) ≤ x then n - 2 + x % 2 else x

/-- Stage 3 values with neighbours outside taken from inside (n even). -/
def AuxIn.at3 (a : AuxIn) (x y : Int) : Int := a.v3 (fold2 a.w x) (fold2 a.h y)

/-- The colour of a position: 0 R, 1 G, 2 B (R245). -/
def AuxIn.colour (a : AuxIn) (x y : Int) : Nat :=
  let c := chan x y
  (([[0, 1, 1, 2], [1, 0, 2, 1], [1, 2, 0, 1], [2, 1, 1, 0]] : List (List Nat)).getD a.phase []).getD c 0

/-- Green at a position (R245). -/
def AuxIn.green (a : AuxIn) (x0 y0 : Int) : Int :=
  let x := fold2 a.w x0
  let y := fold2 a.h y0
  if a.colour x y = 1 then a.v3 x y
  else
    let c := a.v3 x y
    let side (m p n q : Int) : Int × Int :=
      let g := (m - p).natAbs + (2 * c - n - q).natAbs
      ((65536 / (1 + min g 65535) : Nat), rnd (2 * (m + p) + 2 * c - n - q) 4)
    let hz := side (a.at3 (x - 1) y) (a.at3 (x + 1) y) (a.at3 (x - 2) y) (a.at3 (x + 2) y)
    let vt := side (a.at3 x (y - 1)) (a.at3 x (y + 1)) (a.at3 x (y - 2)) (a.at3 x (y + 2))
    sat16 (rnd (hz.1 * hz.2 + vt.1 * vt.2) (hz.1 + vt.1).toNat)

/-- Red (0) or blue (2) at a position, by colour difference from the nearest sites of that colour. -/
def AuxIn.other (a : AuxIn) (col : Nat) (x y : Int) : Int :=
  let ring : List (List (Int × Int)) :=
    [[(0, 0)], [(-1, 0), (1, 0), (0, -1), (0, 1)], [(-1, -1), (1, -1), (-1, 1), (1, 1)]]
  let sites := ring.map fun r => r.filter fun o => a.colour (fold2 a.w (x + o.1)) (fold2 a.h (y + o.2)) == col
  match sites.find? fun r => !r.isEmpty with
  | none => a.green x y
  | some r =>
    let diff (o : Int × Int) : Int := a.at3 (x + o.1) (y + o.2) - a.green (x + o.1) (y + o.2)
    sat16 (a.green x y + rnd (r.map diff).sum r.length)

/-- Stage 6, gamma of channel c. -/
def AuxIn.gamma (a : AuxIn) (c : Nat) (v : Int) : Nat :=
  let i := v.toNat / 256
  let f := v.toNat % 256
  let t (i : Nat) : Nat := leAt a.table (24576 + 257 * c + i) 1
  (rnd (t i * (256 - f) + t (i + 1) * f : Nat) 256).toNat

/-- R, G and B of a pixel. -/
def AuxIn.rgb (a : AuxIn) (x y : Nat) : Bytes :=
  if a.mono then
    let v := a.gamma 1 (a.v3 x y)
    [BitVec.ofNat 8 v, BitVec.ofNat 8 v, BitVec.ofNat 8 v]
  else
    let inp := [a.other 0 x y, a.green x y, a.other 2 x y]
    (List.range 3).map fun r =>
      let m (i : Nat) : Int := signed 10 (bitsOf (a.ccm.getD r 0) (10 * i + 9) (10 * i))
      BitVec.ofNat 8 (a.gamma r (sat16 (rnd ((inp.mapIdx fun i v => m i * v).sum) 128)))

/-- The output image: rows of 3 W bytes, padded to 64. -/
def AuxIn.output (a : AuxIn) : Bytes :=
  (List.range a.h).flatMap fun y => padTo (roundUp 64 (3 * a.w)) ((List.range a.w).flatMap fun x => a.rgb x y)

/-! Submissions. -/

/-- The throttle and a thermal shutdown stop the auxiliary path (R364, R365). -/
def State.auxHeld (s : State) : Bool := s.thm.stage != 0 || s.thm.shutdown

/-- AUX_SUBMIT (R241). -/
def State.auxSubmit (s : State) (x : Ctx) (cam : Nat) (v : Nat) : State × Status :=
  if !s.streamControl x then (s, .notPermitted)
  else if !Param.inRange false .auxSubmit cam v then (s, .badParam)
  else if !s.parBit .auxCamCfg cam 8 then (s, .badParam)
  else if s.auxHeld || s.auxSlotState cam (v % 2) != 0 then (s, .busy)
  else
    ({ s with aux := { s.aux with queue := s.aux.queue ++ [{ cam, slot := v % 2, seq := v / 65536, subAt := s.time }] } },
      .done)

def execAuxSubmitWrite (t : Time) (x : Ctx) (cam : Fin 4) (v : Word) (s : State) : Host.Outcome State Fault Refusal :=
  let r := (s.advance t).auxSubmit x cam.val v.toNat
  .next { r.1 with wstatus := r.2 }

/-- The camera. -/
def State.auxCam (s : State) (c : Nat) : AuxCam := s.aux.cams.getD c .reset

/-- An output slot that is neither the newest complete one nor latched by a frame under composition (R242). -/
def State.auxOutSlot (s : State) (c : Nat) : Nat :=
  let k := s.auxCam c
  ((List.range 3).find? fun o =>
    !(k.valid && k.newest == o) && !(s.frames.any fun f => f.body.isNone && f.fuse.any fun l => l == some (c, o))).getD 0

/-- AUX_PROCESS_START (R242): the oldest submission starts; during a captured frame none does (R249). -/
def execAuxProcessStart (t : Time) (s : State) : Host.Outcome State Fault Refusal :=
  let s := s.advance t
  match s.aux.queue with
  | [] => .next s
  | j :: r =>
    if s.aux.job.isSome || s.auxHeld || s.aux.capture.isSome then .next s
    else
      let c := j.cam
      let cfg := [s.par .auxCamCfg c, s.par .auxCamSize c, s.par .auxBlack (2 * c), s.par .auxBlack (2 * c + 1),
        s.par .auxCcm (3 * c), s.par .auxCcm (3 * c + 1), s.par .auxCcm (3 * c + 2)]
      .next { s with aux := { s.aux with queue := r
                                         job := some (j, s.auxOutSlot c, s.readMem (auxTableAddr c) 32768, cfg) } }

/-- The frame that a job's words describe. -/
def auxInput (cfg : List Nat) (table raw : Bytes) : AuxIn :=
  let g (i : Nat) : Nat := cfg.getD i 0
  { w := bitsOf (g 1) 11 0, h := bitsOf (g 1) 26 16, bits := bitsOf (g 0) 4 0, phase := bitsOf (g 0) 6 5, mono := bitOf (g 0) 7
    dyn := bitsOf (g 0) 24 9, black := [g 2 % 65536, g 2 / 65536, g 3 % 65536, g 3 / 65536], ccm := [g 4, g 5, g 6], table, raw }

/-- AUX_FRAME_DONE (R242): the output is written and is the camera's newest; the input slot is free. -/
def execAuxFrameDone (t : Time) (s : State) : Host.Outcome State Fault Refusal :=
  let s := s.advance t
  match s.aux.job with
  | none => .next s
  | some (j, slot, table, cfg) =>
    let a := auxInput cfg table (s.readMem (auxInAddr j.cam j.slot) (6 * mib))
    let s := s.writeMem (auxOutAddr j.cam slot) a.output
    let cams := s.aux.cams.set j.cam { newest := slot, valid := true, seq := j.seq, subAt := j.subAt }
    let s : State := { s with aux := { s.aux with job := none, cams } }
    let s := (s.perfEvent 10 0x10 (a.w * a.h)).perfEvent 10 0x11
    .next (s.devEvent 0x0800 (leBytes 1 j.cam ++ leBytes 1 slot ++ leBytes 2 j.seq))

/-- A submission is discarded (R243). -/
def State.auxDrop (s : State) (cause : Nat) (j : AuxJob) : State :=
  ((s.bump .auxDropCnt j.cam).perfEvent 10 0x12).devEvent 0x0801 (leBytes 1 j.cam ++ leBytes 1 cause ++ leBytes 2 j.seq)

/-- The queued submissions and the frame in progress of chosen cameras are discarded, and their outputs invalidated (R243):
cause 1 CONFIG, 2 THROTTLE. -/
def State.auxDiscard (s : State) (cause : Nat) (which : Nat → Bool) : State :=
  let busy := match s.aux.job with
    | some (j, _) => if which j.cam then [j] else []
    | none => []
  let gone := busy ++ s.aux.queue.filter fun j => which j.cam
  let cams := s.aux.cams.mapIdx fun c k => if which c then { k with valid := false } else k
  let s : State := { s with aux := { s.aux with
    queue := s.aux.queue.filter fun j => !which j.cam
    job := if busy.isEmpty then s.aux.job else none, cams } }
  gone.foldl (fun s j => s.auxDrop cause j) s

end Sys2Proof.Machine
end

