-- ==== Sys2Proof/Machine/Display.lean ====
section
/-!
DEFINITION. Display and coding images (R222 to R229): the scaler, automatic gain control, fusion with an auxiliary camera
(R246 to R248) and the lines that the CSI-2 ports send.
-/
namespace Sys2Proof.Machine

/-! The viewport and its source. -/

/-- The source rectangle in use: X0, Y0, SW, SH (R222). -/
def State.srcRect (s : State) (v : Nat) : Nat × Nat × Nat × Nat :=
  let size := s.par .outVpSrcSize v
  if size = 0 then (0, 0, s.tick.mosaicW, s.tick.mosaicH)
  else
    let pos := s.par .outVpSrcPos v
    (bitsOf pos 14 0, bitsOf pos 29 16, bitsOf size 14 0, bitsOf size 29 16)

def State.outW (s : State) (v : Nat) : Nat := s.parField .outVpOutSize v 11 0
def State.outH (s : State) (v : Nat) : Nat := s.parField .outVpOutSize v 27 16

/-- The viewport that a port carries, and its format (Table 7.14). -/
def State.portView (s : State) (p : Nat) : Nat := if p = 1 && s.parBit .outPortCfg 1 2 then 1 else 0
def State.portFormat (s : State) (p : Nat) : Nat := s.parField .outPortCfg p 1 0

/-- The tile that covers a mosaic position; none is a void pixel. -/
def State.tileAt (s : State) (x y : Nat) : Option Tile :=
  s.enabled.find? fun t => (s.rowIn t y).isSome && s.par .tileX t ≤ x && x < s.par .tileX t + s.par .actCols t

/-- A pixel of a closed frame. -/
def Frame.pix (f : Frame) (x y : Nat) : Option OutPix :=
  match f.image.find? fun r => r.1 == y with
  | some r => (r.2.find? fun e => e.1 == x).map (·.2)
  | none => none

/-! The scaler (R222). -/

/-- The source position of an output coordinate in units of 1/256 pixel, truncated. -/
def srcPos (x0 sw outw i : Nat) : Int := Int.tdiv ((2 * i + 1) * sw * 128 + (x0 * 256 - 128 : Int) * outw) (max 1 outw)

/-- A coordinate brought inside the source rectangle. -/
def intoRect (x0 sw : Nat) (v : Int) : Nat := (clampI x0 (x0 + sw - 1 : Nat) v).toNat

/-- The scaled value of an output pixel. -/
inductive Scaled where
  | void
  | mark
  | value (q : Nat)
deriving DecidableEq, Repr

/-- The scaler at source position (sx, sy): the nearest source pixel decides void and marker and stands in for pixels that
are void, marked or of another tile. At a fraction of 128/256 it is the further one (log 54). -/
def State.scaleAt (s : State) (f : Frame) (r : Nat × Nat × Nat × Nat) (sx sy : Int) : Scaled :=
  let xs (d : Int) : Nat := intoRect r.1 r.2.2.1 (sx / 256 + d)
  let ys (d : Int) : Nat := intoRect r.2.1 r.2.2.2 (sy / 256 + d)
  let fx := (sx % 256).toNat
  let fy := (sy % 256).toNat
  let nx := xs (if 128 ≤ fx then 1 else 0)
  let ny := ys (if 128 ≤ fy then 1 else 0)
  match s.tileAt nx ny, f.pix nx ny with
  | some t, some p =>
    if p.q9 = 65535 then .mark
    else
      let at_ (x y : Nat) : Nat := match f.pix x y with
        | some o => if s.tileAt x y == some t && o.q9 != 65535 then o.q9 else p.q9
        | none => p.q9
      .value (rnd ((256 - fx) * (256 - fy) * at_ (xs 0) (ys 0) + fx * (256 - fy) * at_ (xs 1) (ys 0)
        + (256 - fx) * fy * at_ (xs 0) (ys 1) + fx * fy * at_ (xs 1) (ys 1) : Nat) 65536).toNat
  | _, _ => .void

/-! Automatic gain control (R223). -/

/-- Modes 0 and 1: the level of a value. -/
def levelLinear (lo hi q : Nat) : Nat :=
  if lo < hi then (clampI 0 255 (rnd (255 * ((q : Int) - lo)) (hi - lo))).toNat else Config.agcLevel lo hi q % 256

/-- The first bin, from one end, at which the cumulative count exceeds tail x total / 1,024. -/
def tailBin (tail total : Nat) : Nat → List (Nat × Nat) → Option Nat
  | _, [] => none
  | c, (b, n) :: r => if tail * total < (c + n) * 1024 then some b else tailBin tail total (c + n) r

/-- Gain control of a viewport for a frame: lo and hi in use, and the table in mode 2. -/
structure Gain where
  lo : Nat
  hi : Nat
  lut : List Nat
deriving DecidableEq, Repr

def Gain.level (g : Gain) (q : Nat) : Nat := if g.lut.isEmpty then levelLinear g.lo g.hi q else g.lut.getD (q / 16) 255

/-- old moves towards target by rnd(damping x (target - old), 256). -/
def damp (damping old target : Nat) : Nat := ((old : Int) + rnd (damping * ((target : Int) - old)) 256).toNat

/-- The gain of viewport v in the frame that closes now. -/
def State.gainOf (s : State) (v : Nat) : Gain :=
  let p := s.outs.getD v .reset
  let manual : Gain := { lo := s.parField .outAgcMan v 15 0, hi := s.parField .outAgcMan v 31 16, lut := [] }
  let mode := s.parField .outAgcCfg v 1 0
  let damping := s.parField .outAgcCfg v 10 2
  let tail := s.parField .outAgcCfg v 18 11
  let total := (p.hist.map (·.2)).sum
  match p.agc with
  | none => manual
  | some old =>
    if mode = 0 then manual
    else
      match tailBin tail total 0 p.hist, tailBin tail total 0 p.hist.reverse with
      | some lb, some hb =>
        if mode = 1 then { lo := damp damping old.1 (16 * lb), hi := damp damping old.2 (16 * hb + 15), lut := [] }
        else
          let plat := s.par .outAgcPlat v
          let cut (n : Nat) : Nat := if plat = 0 then n else min n plat
          let cum (b : Nat) : Nat := ((p.hist.filter fun e => lb ≤ e.1 && e.1 ≤ b).map fun e => cut e.2).sum
          let target (b : Nat) : Nat := if b < lb then 0 else if hb < b then 255 else (rnd (255 * cum b) (max 1 (cum hb))).toNat
          let lut := (List.range 4096).map fun b =>
            match p.lut[b]? with
            | some o => damp damping o (target b)
            | none => target b
          { lo := 16 * lb, hi := 16 * hb + 15, lut }
      | _, _ => { lo := old.1, hi := old.2, lut := if mode = 2 then p.lut else [] }

/-- The histogram of a viewport's delivered source pixels. -/
def State.viewHist (s : State) (f : Frame) (v : Nat) : List (Nat × Nat) :=
  let r := s.srcRect v
  (f.image.filter fun row => r.2.1 ≤ row.1 && row.1 < r.2.1 + r.2.2.2).foldl (fun h row =>
    row.2.foldl (fun h e =>
      if r.1 ≤ e.1 && e.1 < r.1 + r.2.2.1 && e.2.q9 != 65535 && !bitOf e.2.quality 6 then
        keyPut h (e.2.q9 / 16) ((keyGet h (e.2.q9 / 16)).getD 0 + 1)
      else h) h) []

/-- The gain in use and the new histogram are kept for the next frame. -/
def State.keepGain (s : State) (f : Frame) (v : Nat) (g : Gain) : State :=
  let h := s.viewHist f v
  { s with outs := s.outs.modify v fun p => { p with agc := some (g.lo, g.hi), lut := g.lut, hist := h } }

/-! Fusion (R246, R247). -/

def rgbOf (w : Nat) : Nat × Nat × Nat := (w % 256, w / 256 % 256, w / 65536 % 256)

/-- A pixel of a camera's output image. -/
def State.auxPix (s : State) (cam slot w : Nat) (x y : Nat) : Nat × Nat × Nat :=
  rgbOf (leNat (s.readMem (auxOutAddr cam slot + y * roundUp 64 (3 * w) + 3 * x) 3))

/-- The auxiliary position of a display pixel in units of 1/256, where there is one. -/
def State.auxPos (s : State) (cam w h : Nat) (sx sy : Int) : Option (Nat × Nat) :=
  let k (i : Nat) : Nat := s.par .auxHomog (9 * cam + i)
  let x := f32div (binary32.ofInt sx) (binary32.ofInt 256)
  let y := f32div (binary32.ofInt sy) (binary32.ofInt 256)
  let lin (i : Nat) : Nat := f32add (f32add (f32mul (k i) x) (f32mul (k (i + 1)) y)) (k (i + 2))
  let ww := lin 6
  let ax := f32div (lin 0) ww
  let ay := f32div (lin 3) ww
  let ok (a : Nat) (n : Nat) : Bool := binary32.isFinite a && !binary32.lt a 0 && !binary32.lt (binary32.ofInt (n - 1 : Nat)) a
  if f32pos ww && ok ax w && ok ay h then
    some ((floorF (f32mul ax (binary32.ofInt 256))).toNat, (floorF (f32mul ay (binary32.ofInt 256))).toNat)
  else none

/-- Fusion of one display pixel (R247). -/
def State.fusePix (s : State) (v cam slot : Nat) (sx sy : Int) (th : Nat × Nat × Nat) : Nat × Nat × Nat :=
  let w := s.parField .auxCamSize cam 11 0
  let h := s.parField .auxCamSize cam 26 16
  match s.auxPos cam w h sx sy with
  | none => th
  | some (ax, ay) =>
    let mode := s.parField .auxFuseCfg v 1 0
    let px (x y : Nat) : Nat × Nat × Nat := s.auxPix cam slot w (min x (w - 1)) (min y (h - 1))
    let fx := ax % 256
    let fy := ay % 256
    let mix (c : Nat × Nat × Nat → Nat) : Nat :=
      (rnd ((256 - fx) * (256 - fy) * c (px (ax / 256) (ay / 256)) + fx * (256 - fy) * c (px (ax / 256 + 1) (ay / 256))
        + (256 - fx) * fy * c (px (ax / 256) (ay / 256 + 1)) + fx * fy * c (px (ax / 256 + 1) (ay / 256 + 1)) : Nat) 65536).toNat
    let al := s.parField .auxFuseCfg v 12 4
    let bl (c : Nat × Nat × Nat → Nat) : Nat := (rnd (al * mix c + (256 - al) * c th : Nat) 256).toNat
    let blended := if mode = 1 || mode = 3 then (bl (·.1), bl (·.2.1), bl (·.2.2)) else th
    let nx := (ax + 128) / 256
    let ny := (ay + 128) / 256
    let luma (x y : Nat) : Int := let c := px x y; ((77 * c.1 + 150 * c.2.1 + 29 * c.2.2) / 256 : Nat)
    if mode < 2 || nx = 0 || ny = 0 || w ≤ nx + 1 || h ≤ ny + 1 then blended
    else
      let g := (luma (nx + 1) ny - luma (nx - 1) ny).natAbs + (luma nx (ny + 1) - luma nx (ny - 1)).natAbs
      if s.parField .auxFuseCfg v 20 13 ≤ g then rgbOf (s.par .auxEdgeRgb) else blended

/-- What fusion does with viewport v at a numbered tick (R248): the latched camera and slot, and AUX_FUSE_STATE. -/
def State.fusionLatch (s : State) (ts : Time) (stage v : Nat) : Option (Nat × Nat) × Nat :=
  let cam := s.parField .auxFuseCfg v 3 2
  let k := s.auxCam cam
  let age := (ts - k.subAt) / 1000000
  let limit := s.parField .auxFuseCfg v 31 21
  let word (code : Nat) : Nat := (if k.valid then k.seq else 0) + 65536 * code + 2 ^ 20 * if k.valid then min 4095 age else 0
  if s.parField .auxFuseCfg v 1 0 = 0 then (none, 65536)
  else if 1 ≤ stage then (none, word 4)
  else if !k.valid then (none, word 2)
  else if limit ≠ 0 && k.subAt + limit * 1000000 < ts then (none, word 3)
  else (some (cam, k.newest), word 0)

/-! Composition (R224, R225). -/

/-- A composed display pixel: its colour, and the grey level. -/
structure Shown where
  rgb : Nat × Nat × Nat
  level : Nat
deriving DecidableEq, Repr

/-- The first isotherm that paints a value on viewport v. -/
def State.isotherm (s : State) (v q : Nat) : Option Nat :=
  ((List.range 4).find? fun i =>
    s.parField .outIsoRange i 15 0 ≤ q && q ≤ s.parField .outIsoRange i 31 16 && s.parBit .outIsoCfg i (24 + v)).map
      fun i => s.parField .outIsoCfg i 23 0

/-- One display pixel. -/
def State.showPix (s : State) (f : Frame) (g : Gain) (v i j : Nat) : Shown :=
  let r := s.srcRect v
  let sx := srcPos r.1 r.2.2.1 (s.outW v) i
  let sy := srcPos r.2.1 r.2.2.2 (s.outH v) j
  match s.scaleAt f r sx sy with
  | .void => { rgb := (0, 0, 0), level := 0 }
  | .mark => { rgb := rgbOf (s.par .outMarkRgb), level := g.level 65535 }
  | .value q =>
    let n := g.level q
    let pal := rgbOf (leAt (s.outs.getD v .reset).pal (4 * n) 3)
    let fused := match f.fuse.getD v none with
      | some (cam, slot) => s.fusePix v cam slot sx sy pal
      | none => pal
    { rgb := match s.isotherm v q with | some c => rgbOf c | none => fused, level := n }

/-- Y, Cb and Cr of a pixel (R225); grey where the port shows no palette colour. -/
def yuv (grey : Bool) (p : Shown) : Int × Int × Int :=
  let r : Int := p.rgb.1
  let g : Int := p.rgb.2.1
  let b : Int := p.rgb.2.2
  if grey then (16 + rnd (219 * p.level) 255, 128, 128)
  else (16 + rnd (47 * r + 157 * g + 16 * b) 256, 128 + rnd (-26 * r - 86 * g + 112 * b) 256,
    128 + rnd (112 * r - 102 * g - 10 * b) 256)

def byteI (v : Int) : Byte := BitVec.ofNat 8 v.toNat

/-- The payload of a line with chroma: U Y V Y for each pair of columns, chroma averaged over the given lines. -/
def chromaLine (lines : List (List (Int × Int × Int))) (own : List (Int × Int × Int)) : Bytes :=
  (List.range (own.length / 2)).flatMap fun k =>
    let pts := lines.flatMap fun l => [l.getD (2 * k) (0, 128, 128), l.getD (2 * k + 1) (0, 128, 128)]
    [byteI (rnd (pts.map (·.2.1)).sum pts.length), byteI (own.getD (2 * k) (0, 0, 0)).1,
      byteI (rnd (pts.map (·.2.2)).sum pts.length), byteI (own.getD (2 * k + 1) (0, 0, 0)).1]

/-- The data type of a port's image (Table 7.5). -/
def State.portType (s : State) (p : Nat) : Nat :=
  if p = 1 then csiYuv420 else if s.portFormat 0 = 1 then csiRgb888 else csiYuv422

/-- The payloads of the image long packets of a port (Table 7.5): RGB888 as B, G, R; YUV422-8; YUV420-8 with luma only in
odd lines, counted from 1. -/
def State.portImage (s : State) (f : Frame) (g : Gain) (p : Nat) : List Bytes :=
  let v := s.portView p
  let fmt := s.portFormat p
  let line (j : Nat) : List Shown := (List.range (s.outW v)).map fun i => s.showPix f g v i j
  let grey := p = 1 && !s.parBit .outPortCfg 1 3
  let yl (j : Nat) : List (Int × Int × Int) := (line j).map (yuv grey)
  if fmt = 0 then []
  else (List.range (s.outH v)).map fun j =>
    if p = 0 && fmt = 1 then
      (line j).flatMap fun q => [BitVec.ofNat 8 q.rgb.2.2, BitVec.ofNat 8 q.rgb.2.1, BitVec.ofNat 8 q.rgb.1]
    else if p = 0 then chromaLine [yl j] (yl j)
    else if j % 2 = 0 then (yl j).map fun q => byteI q.1
    else chromaLine [yl (j - 1), yl j] (yl j)

/-! CSI-2 packets. -/

def portFin (p : Nat) : Fin 2 := if p = 0 then 0 else 1

/-- A port sends a packet: virtual channel, data type, and the payload, or the frame number of a short packet (R227). -/
def State.portSend (s : State) (p vc typ : Nat) (b : Bytes) : State := { s with out := s.out ++ [.port (portFin p) vc typ b] }

end Sys2Proof.Machine
end

