-- ==== Sys2Proof/Machine/Statistics.lean ====
section
/-!
DEFINITION. The statistics of a frame (R230 to R233, Tables 7.6 to 7.8), and the image buffers with their digests (R218,
R220).
-/
namespace Sys2Proof.Machine

/-! Statistics. -/

/-- The counted pixels in row-major order. -/
def Frame.counted (f : Frame) : List StatPix := f.stats.mergeSort fun a b => a.y < b.y || (a.y == b.y && a.x ≤ b.x)

/-- The histogram of tile t as (bin, count) (R231). -/
def State.histogram (s : State) (px : List StatPix) (t : Nat) : List (Nat × Nat) :=
  (px.filter fun p => p.tile == t).foldl (fun h p =>
    let b := min 4095 ((p.q - s.par .statHistLo t) / max 1 (s.par .statHistBinw t))
    keyPut h b ((keyGet h b).getD 0 + 1)) []

/-- Rectangle i is enabled. -/
def State.rectOn (s : State) (i : Nat) : Bool := s.parField .statRectSize i 14 0 != 0

/-- The first pixel that no later one beats. -/
def bestOf (better : StatPix → StatPix → Bool) : List StatPix → Option StatPix
  | [] => none
  | p :: r => some (r.foldl (fun b q => if better q b then q else b) p)

def f64 (v : Nat) : Nat := binary32.convert binary64 v
def to32 (v : Nat) : Nat := binary64.convert binary32 v

/-- Mean and population standard deviation in binary32, from sums in binary64 in row-major order (R230). A mean square
below the squared mean counts as equal to it. -/
def meanStd (vals : List Nat) : Nat × Nat :=
  let n := binary64.ofInt vals.length
  let sum := vals.foldl (fun a v => binary64.add a (f64 v)) 0
  let sq := vals.foldl (fun a v => binary64.add a (binary64.mul (f64 v) (f64 v))) 0
  let mean := binary64.div sum n
  let var := binary64.sub (binary64.div sq n) (binary64.mul mean mean)
  (to32 mean, to32 (binary64.sqrt (if binary64.lt 0 var then var else 0)))

/-- The record of rectangle i (Table 7.7, R232). -/
def State.rectRecord (s : State) (px : List StatPix) (i : Nat) : Bytes :=
  if !s.parBit .statEn 0 1 || !s.rectOn i then List.replicate 32 0
  else
    let x0 := s.parField .statRectPos i 14 0
    let y0 := s.parField .statRectPos i 29 16
    let w := s.parField .statRectSize i 14 0
    let h := s.parField .statRectSize i 29 16
    let inn := px.filter fun p => x0 ≤ p.x && p.x < x0 + w && y0 ≤ p.y && p.y < y0 + h
    match bestOf (fun a b => binary32.lt a.v.toNat b.v.toNat) inn, bestOf (fun a b => binary32.lt b.v.toNat a.v.toNat) inn with
    | some lo, some hi =>
      let ms := meanStd (inn.map fun p => p.v.toNat)
      leBytes 4 lo.v.toNat ++ leBytes 4 hi.v.toNat ++ leBytes 4 ms.1 ++ leBytes 4 ms.2 ++ leBytes 2 lo.x ++ leBytes 2 lo.y
        ++ leBytes 2 hi.x ++ leBytes 2 hi.y ++ leBytes 4 inn.length ++ List.replicate 4 0
    | _, _ =>
      (List.range 4).flatMap (fun _ => leBytes 4 0x7FC00000) ++ List.replicate 8 0xFF ++ List.replicate 8 0

/-- The hot spots, best first, at most 32 (R233). -/
def State.hotSpots (s : State) (px : List StatPix) : List StatPix :=
  if !s.parBit .statEn 0 2 then []
  else
    let near (a b : StatPix) : Bool :=
      a.tile == b.tile && (a.x, a.y) != (b.x, b.y) && a.x ≤ b.x + 1 && b.x ≤ a.x + 1 && a.y ≤ b.y + 1 && b.y ≤ a.y + 1
    let hot := px.filter fun p =>
      s.par .statHotMin ≤ p.q && px.all fun o => !near p o || binary32.lt o.v.toNat p.v.toNat
    (hot.mergeSort fun a b => !binary32.lt a.v.toNat b.v.toNat).take 32

/-- The statistics buffer (Table 7.6), and the number of hot spots. The areas that STAT_EN leaves out are zero (log 155). -/
def State.statBuffer (s : State) (f : Frame) : Bytes × Nat :=
  let px := f.counted
  let hot := s.hotSpots px
  let hist (t : Nat) : Bytes :=
    let h := if s.parBit .statEn 0 0 then s.histogram px t else []
    (List.range 4096).flatMap fun b => leBytes 4 ((keyGet h b).getD 0)
  let hotBytes (p : StatPix) : Bytes :=
    leBytes 4 p.v.toNat ++ leBytes 2 p.x ++ leBytes 2 p.y ++ leBytes 1 p.tile ++ leBytes 1 p.conf ++ List.replicate 6 0
  (leBytes 6 f.num ++ leBytes 1 (s.par .statEn) ++ leBytes 1 hot.length ++ leBytes 1 (s.parField .outMvFmt 0 3 2)
    ++ List.replicate 7 0
    ++ (List.range 8).flatMap (fun t => leBytes 2 (s.par .statHistLo t) ++ leBytes 1 (s.par .statHistBinw t))
    ++ leBytes 8 (maskOf ((List.range 64).map s.rectOn)) ++ List.replicate 16 0
    ++ (List.range 8).flatMap hist ++ (List.range 64).flatMap (s.rectRecord px) ++ padTo 512 (hot.flatMap hotBytes),
   hot.length)

/-! Image buffers. -/

/-- The pixel formats of Table 7.4. -/
inductive MvFmt where | tq16 | fp32 | quality
deriving DecidableEq, Repr

def MvFmt.size : MvFmt → Nat
  | .tq16 => 2
  | .fp32 => 4
  | .quality => 1

/-- One delivered pixel; none is a void pixel. -/
def mvPixel (k : MvFmt) (p : Option OutPix) : Bytes :=
  match p with
  | none => List.replicate k.size 0
  | some o => match k with
    | .tq16 => leBytes 2 o.tq
    | .fp32 => leBytes 4 o.fp.toNat
    | .quality => leBytes 1 o.quality

/-- An image buffer: its entry number, format and rectangle of the mosaic. -/
structure MvBuf where
  entry : Nat
  fmt : MvFmt
  x : Nat
  y : Nat
  w : Nat
  h : Nat
deriving DecidableEq, Repr

def MvBuf.stride (b : MvBuf) : Nat := roundUp 64 (b.w * b.fmt.size)

/-- Row y of the buffer, without its padding. -/
def MvBuf.row (b : MvBuf) (f : Frame) (y : Nat) : Bytes := (List.range b.w).flatMap fun x => mvPixel b.fmt (f.pix (b.x + x) (b.y + y))

/-- An image buffer row by row with its stride, and its digest (R218, R220). -/
def MvBuf.image (b : MvBuf) (f : Frame) : Bytes × Bytes :=
  let rows := (List.range b.h).map (b.row f)
  (rows.flatMap (padTo b.stride), sha (rows.flatMap sha))

/-- Crop c is enabled. -/
def State.cropOn (s : State) (c : Nat) : Bool := s.parField .outCropSize c 14 0 != 0

/-- The enabled image buffers, in delivery order (R218, R219). -/
def State.mvBufs (s : State) : List MvBuf :=
  let w := s.tick.mosaicW
  let h := s.tick.mosaicH
  let full := s.parField .outMvFmt 0 1 0
  (if full = 0 then [] else [{ entry := 0, fmt := if full = 1 then .tq16 else .fp32, x := 0, y := 0, w, h }])
    ++ (if s.parBit .outMvFmt 0 4 then [{ entry := 1, fmt := .quality, x := 0, y := 0, w, h }] else [])
    ++ ((List.range 16).filter s.cropOn).map fun c =>
      { entry := 2 + c, fmt := if s.parBit .outCropFmt 0 c then .fp32 else .tq16, x := s.parField .outCropPos c 14 0
        y := s.parField .outCropPos c 29 16, w := s.parField .outCropSize c 14 0, h := s.parField .outCropSize c 29 16 }

/-- The enabled buffers of a frame, in delivery order (R218, R219): entry number, bytes and digest. -/
def State.frameBuffers (s : State) (f : Frame) (stat : Bytes) : List (Nat × Bytes × Bytes) :=
  s.mvBufs.map (fun b => (b.entry, b.image f)) ++ [(18, stat, sha stat)]

/-! The staging area and the rows that go to the host (R219). -/

/-- Where a frame's buffers stand in the staging area: the area of an even or an odd frame number, the buffers one behind the
other in delivery order, the statistics last (log 49). -/
def State.stagedAt (s : State) (num : Nat) : List (MvBuf × Nat) × Nat :=
  s.mvBufs.foldl (fun (a : List (MvBuf × Nat) × Nat) b => (a.1 ++ [(b, a.2)], a.2 + b.stride * b.h)) ([], stagingAddr (num % 2))

/-- A buffer of n bytes has its place in a set (R280). -/
def fitsEntry (b : BufSet) (entry n : Nat) : Bool :=
  match b.entries[entry]? with
  | some k => k.addr != 0 && decide (n ≤ k.len)
  | none => false

/-- The buffer that a delivery transfers while rows complete: the first one of its set, which the others follow in order. -/
def State.streamedBuf (s : State) (d : Delivery) : Option (Nat × MvBuf) :=
  d.set.bind fun n =>
    let b := (s.ctx d.ctx).sets.getD n .reset
    (s.mvBufs.find? fun k => fitsEntry b k.entry (k.stride * k.h)).map fun k => (n, k)

/-- A complete row is copied into the host buffers of the deliveries of its frame. -/
def State.copyRow (s : State) (f : Frame) (my : Nat) : State :=
  (f.deliveries.filter fun d => !d.done).foldl (fun s d => match s.streamedBuf d with
    | some (n, b) =>
      if b.y ≤ my && my < b.y + b.h then
        { s with out := s.out ++ [.bufferRow d.ctx f.num n b.entry (b.stride * (my - b.y)) (padTo b.stride (b.row f (my - b.y)))] }
      else s
    | none => s) s

/-- A complete row is written to the staging area. -/
def State.stageRow (s : State) (f : Frame) (my : Nat) : State :=
  ((s.stagedAt f.num).1.filter fun e => e.1.y ≤ my && my < e.1.y + e.1.h).foldl (fun s e =>
    s.writeMem (e.2 + e.1.stride * (my - e.1.y)) (padTo e.1.stride (e.1.row f (my - e.1.y)))) s

/-- The statistics of a frame go to the staging area. -/
def State.stageStats (s : State) (num : Nat) (stat : Bytes) : State := s.writeMem (s.stagedAt num).2 stat

/-- A mosaic row is complete (R219): its tiles' rows have left stage 10; or the cut ends it. -/
def State.completeRow (s : State) (num my : Nat) (cut : Option Time) : State :=
  match s.frameOf num with
  | none => s
  | some f =>
    let done := (s.tilesOfRow f my).foldl (fun (a : State × List (Nat × OutPix) × List StatPix) e =>
      let r := a.1.finishTileRow num e.1 e.2 my cut
      (r.1, a.2.1 ++ r.2, a.2.2 ++ statRow f e.1 my r.2)) (s, [], [])
    let s := (done.1.modFrame num fun f =>
      { f with rowsDone := f.rowsDone ++ [my], image := f.image ++ [(my, done.2.1)], stats := f.stats ++ done.2.2 }).perfEvent
        8 0x13
    match s.frameOf num with
    | some f => (s.stageRow f my).copyRow f my
    | none => s

/-- MOSAIC_ROW_COMPLETE (R217 to R219): every tile that covers the row has delivered, held or abandoned it. -/
def execMosaicRowComplete (t : Time) (y : Nat) (s : State) : Host.Outcome State Fault Refusal :=
  let s := s.advance t
  match s.reading with
  | none => .next s
  | some f =>
    if s.tick.mosaicH ≤ y || f.rowsDone.contains y
        || (s.tilesOfRow f y).any fun e => s.rowFate e.1 (f.tile e.1) e.2 == .notYet then .next s
    else .next (s.completeRow f.num y none)

end Sys2Proof.Machine
end

