-- ==== Sys2Proof/Machine/Exchange.lean ====
section
/-!
DEFINITION. What the owner of a tile sends to its peer in a frame: the rows that leave stage 7 (R333, Table 11.6), and the tile
state record (R334, Table 11.7).
-/
namespace Sys2Proof.Machine

/-! The rows (R333). -/

/-- The exchange word of pixel x of a row (Table 11.6). -/
def exchangeWord (k : FrameTile) (r : Row7) (x : Nat) : Nat :=
  unsigned 20 (r.nc1.getD x marker) + 2 ^ 20 * unsigned 20 (r.nc2.getD x marker) + 2 ^ 40 * min (r.conf.getD x 0) k.conf
    + if r.replaced.getD x false then 2 ^ 44 else 0

/-- The rows of an owned tile that have left stage 7 and have not been sent go to the peer, in their order. -/
def State.exchangeFrom (s : State) (num : Nat) (t : Tile) : Nat → State
  | 0 => s
  | n + 1 =>
    match s.frameOf num with
    | none => s
    | some f =>
      let k := f.tile t
      match k.rows[k.sentRows]? with
      | none => s
      | some r =>
        if !s.settledNear t k (r.y - s.firstRow t) (s.reach7 t k) then s
        else
          let s := match s.row7 t k r.y with
            | some r7 => s.sendRow num t r.y ((List.range (s.par .actCols t)).map (exchangeWord k r7))
            | none => s
          (s.modFrame num fun f => f.modTile t fun k => { k with sentRows := k.sentRows + 1 }).exchangeFrom num t n

/-! The tile state record (R334). -/

/-- The inhibit window of a tile as its record gives it: zeros without one; an end of 2^64 - 1 for a window that lasts until it is
cleared (log 23). -/
def Drift.inhibitBytes (d : Drift) : Bytes :=
  match d.inhibit with
  | none => List.replicate 16 0
  | some w => leBytes 8 w.start ++ leBytes 8 (w.stop.getD (2 ^ 64 - 1))

/-- The record of Table 11.7 for a tile of a frame. -/
def State.stateRecord (s : State) (t : Tile) (k : FrameTile) : Bytes :=
  let d := s.dr t
  k.blockBytes ++ leBytes 2 (unsigned 16 d.tsFly) ++ leBytes 2 (unsigned 16 d.tsCnt) ++ leBytes 4 (unsigned 32 d.cmBase)
    ++ leBytes 2 d.exc ++ leBytes 3 (s.flyState t) ++ leBytes 1 (maskOf [d.hasRef, d.cfgChanged, d.cmChanged])
    ++ leBytes 6 d.lastRef ++ d.inhibitBytes ++ leBytes 8 d.lastRefTime ++ leBytes 6 (d.dueSince.getD 0) ++ [0, 0]

/-- The record goes out once for a frame. -/
def State.sendRecord (s : State) (num : Nat) (t : Tile) (k : FrameTile) : State :=
  (s.pairSend .stateRecord (leBytes 1 t ++ s.stateRecord t k)).modFrame num fun f => f.modTile t fun k => { k with recordSent := true }

/-- Every active row of a tile is there or will not come: its last row has left stage 7. -/
def State.rowsIn (s : State) (t : Tile) (k : FrameTile) : Bool := (List.range (s.mosaicRows t)).all (s.settled t k)

/-- The tile's part of a frame is exchanged: the frame was opened in the pair, the pair stands, and this device owns the tile. -/
def State.exchanges (s : State) (f : Frame) (t : Tile) : Bool :=
  s.pair.mode == .paired && f.paired && (f.tile t).own && (f.tile t).enabled

/-- Rows of an owned tile leave for the peer as they leave stage 7, none of a STALE tile; after the last one, or with last at the
latest, the record follows (R333, R334). -/
def State.exchange (s : State) (num : Nat) (last : Bool) (t : Tile) : State :=
  match s.frameOf num with
  | none => s
  | some f =>
    if !s.exchanges f t then s
    else
      let k := f.tile t
      let s := if k.has flagStale then s else s.exchangeFrom num t k.rows.length
      if (last || s.rowsIn t k) && !k.recordSent then s.sendRecord num t k else s

/-! The end of a pair, and of a join that fails. -/

/-- What a device keeps of a pair that has ended: no peer, no tile, nothing under way between the devices. -/
def Pair.apart (p : Pair) (mode : PairMode) (own : BitVec 8) : Pair :=
  { p with
    mode, role := 2, own, raising := 0, peerId := List.replicate 16 0, beat := none, beatOff := false, mirrorOpen := 0, mirrors := []
    peerD2 := false, rewind := none, transfer := none, bundleTxn := none, sync := [], verdicts := [], giving := false, asked := false
    peerBundle := none, ownBundle := false }

/-- A join fails at check 6 (R335, Table 11.4): the device is what it was before. -/
def State.joinFails (s : State) (st : Status) : State :=
  let s : State := { s with pair := s.pair.apart (if s.pair.own = 0 then .detached else .sole) s.pair.own }
  s.publishGeometry.completeWhere fun _ c => if c.wait == .pairJoin 2 then some (st, 6) else none

end Sys2Proof.Machine
end

