-- ==== Sys2Proof/Machine/Records.lean ====
section
/-!
DEFINITION. The close of a frame and its deliveries: the frame record (R234 to R236, Table 7.9), the cut time (R38, R39),
machine-vision deliveries (R219, R221, R280) and the transmissions of the ports (R226, R228).
-/
namespace Sys2Proof.Machine

/-! The record body. -/

/-- VP0 or VP1 of the record: the source rectangle in use and the output size. -/
def State.viewBytes (s : State) (v : Nat) : Bytes :=
  let r := s.srcRect v
  leBytes 2 r.1 ++ leBytes 2 r.2.1 ++ leBytes 2 r.2.2.1 ++ leBytes 2 r.2.2.2 ++ leBytes 2 (s.outW v) ++ leBytes 2 (s.outH v)

/-- PORT_FMT. -/
def State.portFmtByte (s : State) : Nat :=
  s.portFormat 0 + 4 * s.portFormat 1 + 16 * maskOf [s.parBit .outPortCfg 1 2, s.parBit .outPortCfg 1 3]

/-- Bytes 0 to 199 of the record of a frame (Table 7.9). -/
def State.recordBody (s : State) (f : Frame) (agc : List Gain) (hot : Nat) : Bytes :=
  let hdr := (s.bundle.map (·.hdr)).getD []
  let crops := maskOf ((List.range 16).map s.cropOn)
  let g (v : Nat) : Bytes := let k := agc.getD v ⟨0, 0, []⟩; leBytes 2 k.lo ++ leBytes 2 k.hi
  leBytes 6 f.num ++ [1] ++ leBytes 1 f.flagByte ++ leBytes 8 f.ts ++ leBytes 4 f.period
    ++ leBytes 4 (hdrVersion hdr) ++ sliceB 8 4 hdr ++ leBytes 2 s.tick.mosaicW ++ leBytes 2 s.tick.mosaicH
    ++ f.tiles.flatMap FrameTile.blockBytes
    ++ leBytes 1 (s.par .outMvFmt) ++ leBytes 1 s.portFmtByte ++ leBytes 2 crops ++ leBytes 2 (s.par .outCropFmt &&& crops)
    ++ leBytes 4 (((List.range 8).map fun t => s.par .radQty t * 16 ^ t).sum)
    ++ leBytes 1 (s.par .outPalSel 0 + 16 * s.par .outPalSel 1) ++ leBytes 1 (f.stage + if f.warn then 4 else 0)
    ++ s.viewBytes 0 ++ s.viewBytes 1 ++ g 0 ++ g 1
    ++ leBytes 8 (maskOf ((List.range 64).map s.rectOn)) ++ leBytes 1 (s.par .statEn) ++ leBytes 1 hot
    ++ List.replicate 18 0

/-! The close. -/

/-- No row of the frame left the pipeline (R39). -/
def Frame.noRows (f : Frame) : Bool := f.tiles.all fun k => k.out.isEmpty

/-- A row of the frame that a capture stores as zero words: lost, missing or abandoned (Table 8.3). -/
def FrameTile.blank (k : FrameTile) (r : Nat) : Bool :=
  k.missing.contains r || !k.arrived.contains r || k.dropped r || !k.out.contains r

/-- A captured frame ends: its blank rows, its header, and the next frame's place (R249, Table 8.3). -/
def State.endCapture (s : State) (f : Frame) : State :=
  if s.aux.capture == some f.num then
    let mask := s.readMask
    let blank (t : Nat) : List Nat := (List.range (s.tileRows t)).filter (f.tiles.getD t .idle).blank
    let lost := maskOf ((List.range 8).map fun t => bitOf mask t && !(blank t).isEmpty)
    let wipe (s : State) (t : Nat) : State := (blank t).foldl (fun s r =>
      s.clearMem (replayAddr + s.aux.dst + s.planeOffset mask t + 2 * s.rowWords t * r) (2 * s.rowWords t)) s
    let s := ((List.range 8).filter (bitOf mask)).foldl wipe s
    let temps := (List.range 8).flatMap fun t =>
      leBytes 2 (unsigned 16 (f.tiles.getD t .idle).tsNow) ++ leBytes 2 (unsigned 16 (s.drift.getD t .reset).tref)
    let head := ascii "KRF1" ++ leBytes 1 mask ++ leBytes 1 lost ++ leBytes 6 f.num ++ List.replicate 4 0 ++ temps
      ++ List.replicate 16 0
    let s := s.writeMem (replayAddr + s.aux.dst) head
    let done := s.aux.done + 1
    let size := s.planeOffset mask 8
    let full := s.parField .replayCfg 0 9 2 ≤ done || s.aux.stopReq
    let cause := if s.parField .replayCfg 0 9 2 ≤ done then 0 else 1
    let s : State := { s with aux := { s.aux with
      capture := none, done, dst := s.aux.dst + size, op := if full then 0 else s.aux.op
      cause := if full then cause else s.aux.cause, stopReq := s.aux.stopReq && !full } }
    if full then s.devEvent 0x0802 (leBytes 1 done ++ leBytes 1 cause) else s
  else s

/-- A frame that owes nothing more leaves the device. -/
def State.dropFrame (s : State) (num : Nat) : State :=
  { s with frames := s.frames.filter fun f =>
    !(f.num == num && f.body.isSome && f.deliveries.all (·.done) && f.portsDone.all id) }

/-- What the close of a frame leaves in the state of a tile: an average frame is used or discarded, the scene-based
estimator runs, the reference-row level and the marks of the latest frame are kept. -/
def State.closeTile (s : State) (f : Frame) (t : Tile) : State :=
  let k := f.tile t
  let s := (s.averageFrame f t).estimate f t
  s.modDrift t fun d =>
    { d with
      refRow := if k.refCnt = 0 then 0 else (rnd (k.refSum : Nat) k.refCnt).toNat, markCnt := k.marks, lastBlock := k.blockBytes }

/-- What a close in a pair waits for or replaces: the tiles of the peer whose record has not arrived (R334). -/
def awaited (f : Frame) : List Tile := allTiles.filter fun t => (f.tile t).enabled && !(f.tile t).own && (f.tile t).block.isNone

/-- By the cut time the block of such a tile is that of the frame before, with DROPPED_REMAINDER (R334). -/
def State.replaceBlocks (s : State) (f : Frame) : State :=
  (awaited f).foldl (fun s t => s.modFrame f.num fun f => f.modTile t fun k =>
    { k.flag flagDropped with block := some (s.dr t).lastBlock }) s

/-- The record of a frame closes (R38, R39, R217, R234): the statistics, the body, the buffers and the images. -/
def State.closeFrame (s : State) (num : Nat) : State :=
  match s.frameOf num with
  | none => s
  | some f =>
    if f.body.isSome then s
    else
      let s := allTiles.foldl (fun s t => s.exchange num true t) s
      let s := if f.tiles.any fun k => k.enabled && k.has flagDropped then s.bump .dropCnt else s
      let s := allTiles.foldl (fun s t => s.closeTile f t) s
      let s := (s.settleFrame f.num).endCapture f
      if f.noRows then s.failFrame f 1
      else
        let st := s.statBuffer f
        let agc := [s.gainOf 0, s.gainOf 1]
        let body := s.recordBody f agc st.2
        let bufs := s.frameBuffers f st.1
        let s := s.stageStats num st.1
        let image (p : Nat) : List Bytes :=
          if (f.ports.getD p none).isSome then s.portImage f (agc.getD (s.portView p) ⟨0, 0, []⟩) p else []
        let image (p : Nat) : Nat × List Bytes := (s.portType p, image p)
        let images := [image 0, image 1]
        let s := s.modFrame num fun f => { f with body := some body, bufs, images }
        let s := (agc.zipIdx).foldl (fun s e => s.keepGain f e.2 e.1) s
        s.dropFrame num

/-- The mosaic rows that are not complete yet. -/
def State.openRows (s : State) (f : Frame) : List Nat := (List.range s.tick.mosaicH).filter fun y => !f.rowsDone.contains y

/-- A reference row of the tile has neither arrived nor been lost. -/
def State.refsOpen (s : State) (f : Frame) (t : Tile) : Bool :=
  let k := f.tile t
  k.enabled && k.own && !s.windowed t && (List.range (s.par .refRows t)).any fun i =>
    !k.out.contains (s.par .actRows t + i) && !k.missing.contains (s.par .actRows t + i)

/-- Tiles with a reference row that did not leave by the cut carry DROPPED_REMAINDER (R38). -/
def State.dropRefs (s : State) (f : Frame) : State :=
  allTiles.foldl (fun s t => if s.refsOpen f t then s.modFrame f.num fun f => f.modTile t fun k => k.flag flagDropped else s) s

/-- Rows of a digital tile taken over in the frame that came neither by exchange nor after slot s_0 are missing rows (R341). -/
def State.missHeld (s : State) (f : Frame) : State :=
  (allTiles.filter fun t => s.pair.held.getLsbD t.val).foldl (fun s t =>
    let k := f.tile t
    ((List.range (s.tileRows t)).filter fun r => !k.arrived.contains r && !k.missing.contains r && !k.dropped r).foldl
      (fun s r => s.missRow f.num t r) s) s

/-- The cut (R38): every row that has not left is abandoned, and the record closes. -/
def State.cutFrame (s : State) (f : Frame) : State :=
  let s := s.missHeld f
  let s := (s.openRows f).foldl (fun s y => s.completeRow f.num y (some (s.cutOf f.ts))) s
  ((s.dropRefs f).replaceBlocks f).closeFrame f.num

/-- CUT_TIME (R38, R39). -/
def execCutTime (t : Time) (s : State) : Host.Outcome State Fault Refusal :=
  let s := s.advance t
  match s.reading with
  | some f => if s.cutOf f.ts ≤ s.time then .next (s.cutFrame f) else .next s
  | none => .next s

/-- A frame is whole: every mosaic row is complete, the reference rows are in or dropped, and in a pair the records of the peer's
tiles are here (R217, R334). -/
def State.frameWhole (s : State) (f : Frame) : Bool :=
  (s.openRows f).isEmpty && !allTiles.any (fun t => s.refsOpen f t && !(f.tile t).dropped (s.par .actRows t)) && (awaited f).isEmpty

/-- FRAME_CLOSE (R217): a whole frame's record closes. -/
def execFrameClose (t : Time) (s : State) : Host.Outcome State Fault Refusal :=
  let s := s.advance t
  match s.reading with
  | some f => .next (if s.frameWhole f then s.closeFrame f.num else s)
  | none => .next s

/-! Deliveries. -/

/-- The frame key of a context (R313). -/
def State.frameKey (s : State) (x : Ctx) : Bytes := ((s.ctx x).auth.map (·.key)).getD []

/-- Bytes 0 to 207 of a delivered record. -/
def recordHead (body : Bytes) (kind : Nat) (x : Ctx) (mask flags : Nat) : Bytes :=
  body ++ leBytes 1 kind ++ leBytes 1 x ++ leBytes 3 mask ++ leBytes 1 flags ++ [0, 0]

/-- The record with its tag (R236). -/
def State.taggedRecord (s : State) (x : Ctx) (head : Bytes) (digests : List Bytes) : Bytes :=
  head ++ padTo 48 (Config.hmac384 (s.frameKey x) (head ++ digests.flatten))

/-- A machine-vision delivery (R219, R221, R236, R280): the buffers that have a place, in order, then the record. limit: how
many buffers are complete when the delivery is stopped; none: all. -/
def State.deliver (s : State) (f : Frame) (body : Bytes) (d : Delivery) (limit : Option Nat) : State :=
  let x := d.ctx
  let sent : List (Nat × Bytes × Bytes) := match d.set with
    | none => []
    | some n =>
      let b := (s.ctx x).sets.getD n .reset
      let ok := f.bufs.filter (fun e => fitsEntry b e.1 e.2.1.length)
      match limit with
      | some k => ok.take k
      | none => ok
  let short := limit.isSome || (d.set.isSome && sent.length < f.bufs.length)
  let flags := (if d.set.isNone then 1 else 0) + if short then 2 else 0
  let mask := (sent.map fun e => 2 ^ e.1).sum
  let head := recordHead body 0 x mask flags
  let rec_ := s.taggedRecord x head (sent.map (·.2.2))
  let s := sent.foldl (fun s e =>
    ({ s with out := s.out ++ [.buffer x f.num (d.set.getD 0) e.1 e.2.1] } : State).perfEvent 9 0x10 ((e.2.1.length + 63) / 64)) s
  let place : HostOut := match d.set with
    | some n => .record x f.num n rec_
    | none => .overflowRecord x f.num rec_
  let s := (({ s with out := s.out ++ [place] } : State).perfEvent 9 0x10 4).perfEvent 9 0x11
  let s := match d.set with
    | some n => s.modCtx x fun c => { c with sets := c.sets.modify n fun b => { b with state := .held } }
    | none => s
  let s := s.modFrame f.num fun f =>
    { f with deliveries := f.deliveries.map fun e => if e.ctx = x then { e with done := true } else e }
  let s := s.ctxEvent x 0x0100 (leBytes 6 f.num ++ leBytes 1 (d.set.getD 0xFF) ++ leBytes 1 flags ++ leBytes 3 mask)
  (s.chainAdd x 0 (sha (head ++ (sent.map (·.2.2)).flatten)) f.num).dropFrame f.num

/-- DELIVERY_DONE (R219): the transfer of a context's oldest closed frame ends. -/
def execDeliveryDone (t : Time) (x : Ctx) (s : State) : Host.Outcome State Fault Refusal :=
  let s := s.advance t
  match s.frames.find? fun f => f.body.isSome && f.deliveries.any fun d => d.ctx == x && !d.done with
  | some f =>
    match f.body, f.deliveries.find? fun d => d.ctx == x && !d.done with
    | some body, some d => .next (s.deliver f body d none)
    | _, _ => .next s
  | none => .next s

/-! Ports. -/

/-- A port has sent its image: the record follows on virtual channel 1, and the port is idle (R226, R228, R236). -/
def State.portDone (s : State) (p : Nat) (f : Frame) (body : Bytes) (x : Ctx) : State :=
  let image := f.images.getD p (0, [])
  let lines := image.2
  let digest := sha lines.flatten
  let head := recordHead body (1 + p) x 1 0
  let num := leBytes 2 (f.num % 65536)
  let long (s : State) (vc typ : Nat) (b : Bytes) : State := (s.portSend p vc typ b).perfEvent 9 0x12
  let s := (lines.foldl (fun s l => long s 0 image.1 l) s).portSend p 0 csiFrameEnd num
  let s := if s.parBit .outPortCfg p 5 then
      ((long (s.portSend p 1 csiFrameStart num) 1 csiEmbedded (s.taggedRecord x head [digest])).portSend p 1 csiFrameEnd
        num).perfEvent 9 0x11
    else s
  let s : State := { s with outs := s.outs.modify p fun o => { o with sending := none, state := 1 } }
  let s := s.modFrame f.num fun f => { f with portsDone := f.portsDone.set p true }
  (s.chainAdd x (p + 1) (sha (head ++ digest)) f.num).dropFrame f.num

/-- PORT_IMAGE_DONE (R226). -/
def execPortImageDone (t : Time) (p : Fin 2) (s : State) : Host.Outcome State Fault Refusal :=
  let s := s.advance t
  match (s.outs.getD p.val .reset).sending with
  | none => .next s
  | some n => match s.frameOf n with
    | none => .next s
    | some f => match f.body, f.ports.getD p.val none with
      | some body, some x => .next (s.portDone p.val f body x)
      | _, _ => .next s

/-- The reading frame ends at the latest at the next tick's instant, ahead of every change of that tick (R40, R117). -/
def State.endReading (s : State) : State :=
  match s.reading with
  | some f => s.cutFrame f
  | none => s

end Sys2Proof.Machine
end

