-- ==== Sys2Proof/Machine/Replay.lean ====
section
/-!
DEFINITION. Replay and raw capture (R249 to R251): REPLAY_CTL, the frames of a replay and their results.
-/
namespace Sys2Proof.Machine

/-- The replay area in bytes, and REPLAY_CFG. -/
def State.replaySize (s : State) : Nat := (region s.mem.gib 8).size
def State.replayCount (s : State) : Nat := s.parField .replayCfg 0 9 2
def State.replayTap (s : State) : Nat := s.parField .replayCfg 0 1 0

/-- A source frame in bytes: the enabled tiles; a captured one holds the tiles that this device reads. -/
def State.sourceBytes (s : State) : Nat := s.planeOffset s.enabledMask 8
def State.captureBytes (s : State) : Nat := s.planeOffset s.readMask 8

/-- The tiles of a replay: the enabled ones. -/
def State.replayTiles (s : State) : List Tile := allTiles.filter s.tileOn

/-- A result in bytes: the header and the data of the tap (R250). -/
def State.resultBytes (s : State) : Nat :=
  64 + match s.replayTap with
    | 2 => roundUp 64 (2 * s.tick.mosaicW) * s.tick.mosaicH
    | 3 => roundUp 64 (4 * s.tick.mosaicW) * s.tick.mosaicH
    | _ => (s.replayTiles.map fun (t : Tile) => 4 * s.mosaicRows t * s.par .actCols t).sum

/-- R_f (R251), ns. -/
def State.replayTime (s : State) : Nat := s.frameRows * 10000 + s.latency * 3300 + tClose

/-- The least P_budget beside a replay (R249), ns. -/
def replayBudget : Nat := 33334000

/-- The header at an offset of the replay area fits the device (R249). -/
def State.headerOk (s : State) (off : Nat) : Bool :=
  s.readMem (replayAddr + off) 4 == ascii "KRF1" && leNat (s.readMem (replayAddr + off + 4) 1) == s.enabledMask

/-! REPLAY_CTL. -/

/-- The operation ends: its cause is kept, and REPLAY_DONE is raised. The nodes of a frame in progress are wasted (R406). -/
def State.endReplay (s : State) (cause : Nat) : State :=
  let s := if s.aux.busySince.isSome then s.settleFrame replayNum else s
  let s : State := { s with aux := { s.aux with op := 0, cause, stopReq := false, busySince := none, capture := none } }
  s.devEvent 0x0802 (leBytes 1 s.aux.done ++ leBytes 1 cause)

/-- A write of 1, 2 or 3 to REPLAY_CTL (R249). During a thermal shutdown replay stays stopped (R365), and its start completes BUSY
(log 109). -/
def State.replayCtl (s : State) (x : Ctx) (v : Nat) : State × Status :=
  let begin_ (op : Nat) : State :=
    { s with aux := { s.aux with
      op, done := 0, cause := 0, stopReq := false, busySince := none, capture := none, src := 256 * s.par .replaySrc
      dst := 256 * s.par .replayDst } }
  let room (off n : Nat) : Bool := off + s.replayCount * n ≤ s.replaySize
  let dst := 256 * s.par .replayDst
  let src := 256 * s.par .replaySrc
  if !s.streamControl x then (s, .notPermitted)
  else if v = 3 then
    if s.aux.op = 0 then (s, .done)
    else if s.aux.busySince.isNone && s.aux.capture.isNone then (s.endReplay 1, .done)
    else ({ s with aux := { s.aux with stopReq := true } }, .done)
  else if s.aux.op ≠ 0 then (s, .busy)
  else if v = 2 then (if room dst s.captureBytes then (begin_ 2, .done) else (s, .badParam))
  else if v = 1 then
    if !s.headerOk src || !room src s.sourceBytes || !room dst s.resultBytes then (s, .badParam)
    else if s.thm.shutdown || s.anyStream && s.pBudget < replayBudget then (s, .busy)
    else (begin_ 1, .done)
  else (s, .badParam)

def execReplayStart (t : Time) (x : Ctx) (s : State) : Host.Outcome State Fault Refusal :=
  let r := (s.advance t).replayCtl x 1
  .next { r.1 with wstatus := r.2 }

def execCaptureStart (t : Time) (x : Ctx) (s : State) : Host.Outcome State Fault Refusal :=
  let r := (s.advance t).replayCtl x 2
  .next { r.1 with wstatus := r.2 }

def execReplayStop (t : Time) (x : Ctx) (s : State) : Host.Outcome State Fault Refusal :=
  let r := (s.advance t).replayCtl x 3
  .next { r.1 with wstatus := r.2 }

/-! A replay frame. -/

/-- What the header gives to a tile: Ts_now, T_ref, and INCOMPLETE (Table 8.3). -/
def State.replayTile (s : State) (head : Bytes) (t : Tile) : FrameTile :=
  if !s.tileOn t then .idle
  else
    let tref := signed 16 (leAt head (18 + 4 * t.val) 2)
    let pair : Nat × Nat × Nat × Bool := match s.calFor t with
      | some b => pairFor (hdrSetTemp b.hdr) (hdrSets b.hdr) tref
      | none => (0, 0, 0, false)
    let k : FrameTile :=
      { FrameTile.idle with
        enabled := true, lo := pair.1, hi := pair.2.1, w := pair.2.2.1, tsNow := signed 16 (leAt head (16 + 4 * t.val) 2)
        conf := s.confOf t, moving := (s.dr t).moving }
    (((k.flagIf (bitOf (leAt head 5 1) t.val) flagLate).flagIf (!s.calibrated t) flagUncal).flagIf pair.2.2.2 flagClamp).flagIf
      (s.degradedNow t) flagDegraded

/-- The frame that a source frame makes. -/
def State.replayFrame (s : State) (head : Bytes) : Frame :=
  { num := replayNum, ts := s.time, period := 0, accepted := false, freeRun := false, d2 := s.tick.d2, paired := false
    lead := false, hold := false, tfStopped := true, stage := 0, warn := false, tiles := allTiles.map (s.replayTile head)
    deliveries := [], ports := [none, none], portsDone := [true, true], rowsDone := [], stats := [], image := [], body := none
    bufs := [], fuse := [], images := [] }

/-- The words of row r of a tile at a source offset. -/
def State.sourceWords (s : State) (off : Nat) (t : Tile) (r : Nat) : List Nat :=
  let n := s.rowWords t
  let a := replayAddr + off + s.planeOffset s.enabledMask t + 2 * n * r
  (List.range n).map fun i => leNat (s.readMem (a + 2 * i) 2)

/-- A tile's rows go through stages 1 to 5. A sample word marked REF_NOT_READY flags the tile. -/
def State.replayRows (s : State) (off : Nat) (t : Tile) : State :=
  (List.range (s.tileRows t)).foldl (fun s r =>
    let w := s.sourceWords off t r
    let s := s.processRow replayNum t r w
    let rnr := !s.isDigital t && w.any fun v => bitOf v 14
    s.modFrame replayNum fun f => f.modTile t fun k =>
      { (k.flagIf rnr flagRnr) with out := if k.out.contains r then k.out else k.out ++ [r] }) s

/-- LV of an active pixel of a source row. -/
def State.sourceLv (s : State) (off : Nat) (t : Tile) (r x : Nat) : Nat :=
  (s.linearValue t (s.linTable t) (s.sourceWords off t r) x).1

/-- The data of taps 0 and 1: per-tile planes of 32-bit values (R250). -/
def State.planeData (s : State) (off : Nat) (f : Frame) (t : Tile) : Bytes :=
  (List.range (s.mosaicRows t)).flatMap fun r =>
    (List.range (s.par .actCols t)).flatMap fun x =>
      if s.replayTap = 0 then leBytes 4 (s.sourceLv off t r x)
      else
        match (f.tile t).at6 (s.setOutside t (f.tile t)) (s.spectral t) x (s.firstRow t + r : Nat) with
        | some (v, _) => leBytes 4 (unsigned 32 v)
        | none => leBytes 4 (unsigned 32 marker)

/-- The stage 8 outputs of a tile at its mosaic positions, with what stages 6 to 8 count. -/
def State.replayTileOut (s : State) (f : Frame) (t : Tile) : State × List (Nat × Nat × OutPix) :=
  (List.range (s.mosaicRows t)).foldl (fun (a : State × List (Nat × Nat × OutPix)) i =>
    let s := a.1
    let my := s.placeRow t i
    match s.row8 t (f.tile t) (s.firstRow t + i) my with
    | none => a
    | some px =>
      let out := px.mapIdx fun x p =>
        (my, s.placeCol t x, ({ tq := p.q, fp := BitVec.ofNat 32 (p.px.v.getD 0x7FC00000), q9 := p.q, quality := 0 } : OutPix))
      let marks := (px.filter (·.px.mark)).length
      let clamps := (px.filter (·.px.clamp)).length
      let s := ((s.bump .radMarkCnt t marks).perfEvent 8 0x10 marks).perfEvent 7 0x11 (px.filter fun p => p.nc == marker).length
      let s := s.perfEvent 7 0x12 (s.demosaiced (f.tile t) t)
      let s := ((s.bump .radClampCnt t clamps).perfEvent 8 0x11 clamps).perfEvent 7 0x10 (px.filter (·.rep)).length
      (s, a.2 ++ out)) (s, [])

/-- The mosaic of taps 2 and 3, laid out as the full-mosaic buffer at the tap before filters. -/
def State.mosaicData (s : State) (px : List (Nat × Nat × OutPix)) : Bytes :=
  let size := if s.replayTap = 2 then 2 else 4
  (List.range s.tick.mosaicH).flatMap fun y =>
    let row := px.filter fun e => e.1 == y
    padTo (roundUp 64 (size * s.tick.mosaicW)) ((List.range s.tick.mosaicW).flatMap fun x =>
      match row.find? fun e => e.2.1 == x with
      | some e => if size = 2 then leBytes 2 e.2.2.tq else leBytes 4 e.2.2.fp.toNat
      | none => List.replicate size 0)

/-- The header of a result (R250). -/
def State.resultHeader (s : State) (frame : Bytes) (abandoned : Bool) (f : Frame) : Bytes :=
  padTo 64 (frame ++ leBytes 1 s.replayTap ++ leBytes 1 (if abandoned then 1 else 0)
    ++ f.tiles.flatMap fun k => leBytes 2 k.flagWord)

/-- The device with the replay frame through stages 1 to 5 in it: the drift terms are off with REPLAY_CFG[10], and nothing is
captured. -/
def State.runReplay (s : State) (head : Bytes) : State :=
  let off := s.aux.src
  let s : State := { s with aux := { s.aux with capture := none }, frames := [s.replayFrame head] }
  let quiet (s : State) (t : Tile) : State :=
    if s.parBit .replayCfg 0 10 then s.setPar .pipeStageEn t (s.par .pipeStageEn t &&& 0b11110000111) else s
  let s := s.replayTiles.foldl quiet s
  s.replayTiles.foldl (fun s t => s.replayRows off t) s

/-- The next place after a replay frame, and the end of the operation. -/
def State.nextReplay (s : State) : State :=
  let done := s.aux.done + 1
  let s : State := { s with aux := { s.aux with
    done, src := s.aux.src + s.sourceBytes, dst := s.aux.dst + s.resultBytes, busySince := none } }
  if s.replayCount ≤ done then s.endReplay 0 else if s.aux.stopReq then s.endReplay 1 else s

/-- The source frame at the present place has passed the pipeline: the state with what it counted and how its nodes ended, and the
bytes of its result, header and data (R250, R406, R408). -/
def State.replayResult (s : State) : State × Bytes :=
  let head := s.readMem (replayAddr + s.aux.src) 64
  let r := s.runReplay head
  let f := r.frames.headD (s.replayFrame head)
  let d : State × Bytes :=
    if s.replayTap < 2 then (r, s.replayTiles.flatMap fun t => r.planeData s.aux.src f t)
    else
      let o := s.replayTiles.foldl (fun (a : State × List (Nat × Nat × OutPix)) t =>
        let k := a.1.replayTileOut f t
        (k.1, a.2 ++ k.2)) (r, [])
      (o.1, o.1.mosaicData o.2)
  (d.1.leaveFrame f.num, s.resultHeader (sliceB 6 6 head) false f ++ d.2)

/-- A replay frame completes: its result is written. Only counters move besides (R250, R406, R408). -/
def State.finishReplay (s : State) : State :=
  let s := s.nodesTo s.time
  let r := s.replayResult
  let regs := s.replayTiles.foldl (fun g (t : Tile) => putReg g .pipeStageEn t.val (s.par .pipeStageEn t)) r.1.regs
  let s : State := { s with perf := r.1.perf, regs, free := r.1.free }
  ((s.writeMem (replayAddr + s.aux.dst) r.2).perfEvent 10 0x13).nextReplay

/-- A replay frame that a tick abandons: its header carries ABANDONED, and the nodes that had entered are wasted; they have been
candidates of the sampler, and a tagged one gets a record with WASTED (R251, R406, R408, R409). -/
def State.abandonReplay (s : State) : State :=
  let head := s.readMem (replayAddr + s.aux.src) 64
  let s := s.settleFrame replayNum
  (s.writeMem (replayAddr + s.aux.dst) (s.resultHeader (sliceB 6 6 head) true (s.replayFrame head))).nextReplay

/-- The nodes of a replay frame start to enter, a row in each 10.0 µs as R_f has it, and one in each clock within a row (R251, R406;
log 63). -/
def State.enterReplay (s : State) : State :=
  let s := s.nodesTo s.time
  let label := leAt (s.readMem (replayAddr + s.aux.src) 64) 6 6
  let rows (t : Tile) : List Entering :=
    let from_ := s.perf.laneFree t (clockOf s.time)
    (List.range (s.tileRows t)).map fun r => s.entryOf replayNum label t r (from_ + 8000 * r)
  { s with
    perf := { s.perf with entering := s.perf.entering ++ s.replayTiles.flatMap rows }
    aux := { s.aux with busySince := some s.time } }

/-- What a numbered tick does to a replay and a capture (R249, R251). -/
def State.replayTick (s : State) : State :=
  let s := if s.aux.op = 1 && s.aux.busySince.isSome then s.abandonReplay else s
  if s.aux.op = 1 && s.pBudget < replayBudget then s.endReplay 3 else s

/-- A capture takes the frame of this numbered tick: its planes start as zero words. -/
def State.captureTick (s : State) (num : Nat) : State :=
  if s.aux.op = 2 then
    if s.aux.stopReq then s.endReplay 1
    else (s.clearMem (replayAddr + s.aux.dst) s.captureBytes : State) |> fun s =>
      { s with aux := { s.aux with capture := some num } }
  else s

/-- REPLAY_FRAME_START (R249, R251): the next replay frame starts if it may; a bad header stops the operation. -/
def execReplayFrameStart (t : Time) (s : State) : Host.Outcome State Fault Refusal :=
  let s := s.advance t
  if s.aux.op ≠ 1 || s.aux.busySince.isSome || s.thm.shutdown then .next s
  else if !s.headerOk s.aux.src then .next (s.endReplay 2)
  else
    let fits := if s.anyStream then
        s.reading.isNone && replayBudget ≤ s.pBudget
          && (match s.tick.last with | some ts => decide (s.time + s.replayTime ≤ s.cutOf ts) | none => false)
      else true
    if fits then .next s.enterReplay else .next s

/-- REPLAY_FRAME_DONE (R250, R251): R_f has passed. -/
def execReplayFrameDone (t : Time) (s : State) : Host.Outcome State Fault Refusal :=
  let s := s.advance t
  match s.aux.busySince with
  | some b => if s.aux.op = 1 && b + s.replayTime ≤ s.time then .next s.finishReplay else .next s
  | none => .next s

end Sys2Proof.Machine
end

