-- ==== Sys2Proof/Machine/NvPages.lean ====
section
/-!
DEFINITION. What the device writes into pages of the NV store (Tables 13.2, 13.5, 13.6): persistent parameters, bindings, the ledger
summary and its periods, and the record of a transfer.
-/
namespace Sys2Proof.Machine

/-- NV page 9 holds the state of slot A and of slot B, trial_boots, a confirm record flag and the new ARB (R310, R317; log 5). -/
def fwPage : Nat := 9

/-! Staged values (R289). -/

/-- A staged set by parameter and index. -/
def stagedParams (staged : List (Nat × Word)) : List (Param × Nat) := staged.filterMap fun e => paramOf e.1

/-- The state with a staged set applied to its register file. -/
def State.withStaged (s : State) (staged : List (Nat × Word)) : State :=
  staged.foldl (fun s e => match paramOf e.1 with
    | some (p, i) => s.setPar p i e.2.toNat
    | none => s) s

/-! The NV image of persistent parameters (Table 13.2; log 5). -/

/-- The persistent parameters of page 17, four bytes each in this order. -/
def pageParams : List (Param × Nat) :=
  [(.secFwConfirmBoots, 0), (.secFwConfirmTime, 0), (.secFwCosign, 0), (.pairBoard, 0), (.pairPeerId, 0), (.pairPeerId, 1),
    (.pairPeerId, 2), (.pairPeerId, 3), (.pairRolePref, 0), (.clkRefinFreq, 0), (.thmWarn, 0), (.thmThrottle, 0),
    (.thmShut, 0), (.pegCfg, 0), (.pegCfg, 1)]

def State.paramPage (v : State) : Bytes := pageParams.flatMap fun e => leBytes 4 (v.par e.1 e.2)

/-- The bindings and tag ranges of page 11: eight bytes for each context. -/
def State.bindingPage (v : State) : Bytes :=
  (List.range 8).flatMap fun x =>
    leBytes 2 (v.par .hostCtxBind x) ++ leBytes 2 (v.par .hostTagBase x) ++ leBytes 2 (v.par .hostTagCount x) ++ [0, 0]

/-- The NV updates of a commit of persistent parameters. -/
def State.persistentUps (v : State) (staged : List (Nat × Word)) : List (Nat × Nat × Bytes) :=
  let ps := (stagedParams staged).map (·.1)
  let binds (p : Param) : Bool := [Param.hostCtxBind, .hostTagBase, .hostTagCount].contains p
  let host := ps.any binds
  let rest := ps.any fun p => p.row.persistent && !binds p
  (if host then [(11, 0, v.bindingPage)] else []) ++ if rest then [(17, 0, v.paramPage)] else []

/-- The configuration with the values of every commit whose journal transaction holds it already, or is behind it, in fetch order:
what the NV pages will hold before those of one that enters the buffer now (R285, R289). -/
def State.withEntered (s : State) : State :=
  let cs := (s.ctxs.flatMap (·.inflight)).mergeSort fun a b => a.order ≤ b.order
  cs.foldl (fun s c => match c.wait with
    | .commitNv (some _) vals | .commitApply vals _ => s.withStaged vals
    | _ => s) s

/-! The ledger (R386 to R389). -/

def State.modLedger (s : State) (f : Ledger → Ledger) : State := { s with ledger := f s.ledger }

/-- The 256 bytes of the summary (Table 13.5). -/
def Ledger.bytes (l : Ledger) : Bytes :=
  leBytes 4 l.minutes ++ leBytes 4 l.time ++ ((List.range 8).flatMap fun i => leBytes 4 (l.bands.getD i 0))
    ++ ((List.range 8).flatMap fun i => leBytes 4 (l.pulses.getD i 0)) ++ leBytes 2 l.warnings ++ leBytes 2 l.stage2
    ++ leBytes 2 l.shutdowns ++ leBytes 2 l.regress ++ leBytes 2 l.openIdx ++ leBytes 2 l.closed ++ leBytes 4 l.start
    ++ leBytes 4 l.openMin ++ List.replicate 36 0 ++ padTo 128 (l.log.flatMap (padTo 16))

/-- The ledger that a committed summary gives at boot (R386). -/
def Ledger.ofBytes (b : Bytes) : Ledger :=
  { minutes := leAt b 0 4, time := leAt b 4 4, bands := (List.range 8).map fun i => leAt b (8 + 4 * i) 4
    pulses := (List.range 8).map fun i => leAt b (40 + 4 * i) 4, warnings := leAt b 72 2, stage2 := leAt b 74 2
    shutdowns := leAt b 76 2, regress := leAt b 78 2, openIdx := leAt b 80 2, closed := leAt b 82 2, start := leAt b 84 4
    openMin := leAt b 88 4, openPulses := 0, openFlag := false
    log := ((List.range 8).map fun i => sliceB (128 + 16 * i) 16 b).filter fun e => leAt e 8 2 != 0 }

/-- A host time (R388). -/
def State.ledgerHostTime (s : State) (h : Nat) : State :=
  let l := s.ledger
  let s := s.modLedger fun l => { l with time := max h l.time }
  if h < l.start then
    (s.modLedger fun l => { l with regress := satAdd 0xFFFF l.regress 1, openFlag := true }).devEvent 0x0B04
      (leBytes 4 h ++ leBytes 4 s.ledger.time ++ leBytes 2 l.openIdx)
  else s

/-- The entry of the open period as it closes (Table 13.6). -/
def Ledger.entry (l : Ledger) (label : Bytes) : Bytes :=
  leBytes 2 l.openIdx ++ leBytes 1 (if l.openFlag then 1 else 0) ++ [0] ++ leBytes 4 l.start ++ leBytes 4 l.time
    ++ leBytes 4 l.openMin ++ leBytes 4 l.openPulses ++ padTo 8 label ++ List.replicate 4 0

/-- The open period closes (R389): a host time first, then the event, and the next period opens. Answers what the NV store takes: the
summary, and the entry of index i on region 1 page 1 + i / 8, eight to a page. -/
def State.closePeriod (s : State) (payload : Bytes) : State × List (Nat × Nat × Bytes) :=
  let h := leAt payload 0 4
  let s := if h = 0 then s else s.ledgerHostTime h
  let l := s.ledger
  let entry := l.entry (sliceB 4 8 payload)
  let s := s.modLedger fun l =>
    { l with
      closed := l.closed + 1, openIdx := l.openIdx + 1, start := l.time, openMin := 0, openPulses := 0, openFlag := false }
  let s := s.devEvent 0x0B05 (leBytes 2 l.openIdx ++ leBytes 4 l.time ++ leBytes 4 l.openMin)
  (s, [(256, 0, s.ledger.bytes), (257 + l.openIdx / 8, 32 * (l.openIdx % 8), entry)])

/-! What a write does as it enters the commit buffer. -/

/-- The updates of a write, and the state once its part outside the buffer is done. -/
def State.nvAct (s : State) (g : NvGroup) : State × List (Nat × Nat × Bytes) :=
  match g.act with
  | .plain | .bundle => (s, g.ups)
  | .summary => (s, [(256, 0, s.ledger.bytes)])
  | .close payload => s.closePeriod payload
  | .params vals => (s, (s.withEntered.withStaged vals).persistentUps vals)
  | .transfer key => ({ s with sec := { s.sec with otp := { s.sec.otp with transfer := some (key, false) } } }, g.ups)

/-- The log holds no room for one more period (R389). -/
def State.ledgerFull (s : State) : Bool := decide (256 ≤ s.ledger.closed)

end Sys2Proof.Machine
end

