-- ==== Sys2Proof/Machine/Nv.lean ====
section
/-!
DEFINITION. The NV store (R371 to R385): page reads with their check, the commit buffer, transactions, recovery records,
and the commands NV_READ, NV_WRITE, NV_COMMIT and NV_UNLOCK.
-/
namespace Sys2Proof.Machine

/-! Pages (R371, R381). A logical page that was never committed stands on the physical page of its own number and reads as
zeros (log 5). -/

def zeroPage : Bytes := List.replicate 256 0

def State.nvMap (s : State) (page : Nat) : Option NvPage := s.nv.pages.find? fun p => p.page == page

/-- The copy answers its check. -/
def NvCopy.good (c : NvCopy) : Bool := crc32c c.data == c.crc.toNat

/-- What a read of a page finds: its bytes, whether they were recovered, and the detail of the event. -/
structure NvFound where
  data : Bytes
  recovered : Bool
  how : Nat
  txn : Nat
deriving DecidableEq, Repr

def State.nvLook (s : State) (page : Nat) : NvFound :=
  match s.nvMap page with
  | none => ⟨zeroPage, false, 0, 0⟩
  | some p =>
    if p.cur.good then ⟨p.cur.data, false, 0, p.cur.txn⟩
    else
      match p.prev with
      | some c => if c.good then ⟨c.data, true, 0, c.txn⟩ else ⟨zeroPage, true, 1, 0⟩
      | none => ⟨zeroPage, true, 1, 0⟩

/-- The page holds a device record that can be read (R372). -/
def State.nvHeld (s : State) (page : Nat) : Bool := (s.nvMap page).isSome && (s.nvLook page).how == 0

/-! The commit buffer (R378). -/

def State.modNv (s : State) (f : Nv → Nv) : State := { s with nv := f s.nv }

/-- A page as the next transaction would leave it. -/
def State.nvPending (s : State) (page : Nat) : Bytes := (keyGet s.nv.buffer page).getD (s.nvLook page).data

/-- The page check raises NV_PAGE_RECOVERED (R381). -/
def State.nvNotice (s : State) (page : Nat) (f : NvFound) : State :=
  (s.bump .nvRecoverCnt).devEvent 0x0B00 (leBytes 2 page ++ leBytes 1 f.how ++ [0] ++ leBytes 6 f.txn)

/-- Byte i of a page has been written by a command fetched later than an order. -/
def Nv.laterAt (n : Nv) (order page i : Nat) : Bool :=
  n.entered.any fun e => decide (order < e.1) && e.2.1 == page && within e.2.2.1 (e.2.2.1 + e.2.2.2 - 1) i && e.2.2.2 != 0

/-- A page with an update laid into it: bytes that a later-fetched write has set stay (R378). -/
def Nv.lay (n : Nv) (order : Nat) (old : Bytes) (u : Nat × Nat × Bytes) : Bytes :=
  if n.entered.any fun e => decide (order < e.1) && e.2.1 == u.1 then
    (List.range 256).map fun i =>
      if within u.2.1 (u.2.1 + u.2.2.length - 1) i && !u.2.2.isEmpty && !n.laterAt order u.1 i then u.2.2.getD (i - u.2.1) 0
      else old.getD i 0
  else padTo 256 (old.take u.2.1 ++ u.2.2 ++ old.drop (u.2.1 + u.2.2.length))

/-- One update of a page in the buffer; its data cross the guyline to the NV store (R43). An update of a part of a page that the buffer
does not hold reads the page first. -/
def State.nvEnter (s : State) (order : Nat) (u : Nat × Nat × Bytes) : State :=
  let f := s.nvLook u.1
  let s := if f.recovered && (keyGet s.nv.buffer u.1).isNone && decide (u.2.2.length < 256) then s.nvNotice u.1 f else s
  let new := s.nv.lay order (s.nvPending u.1) u
  (s.sendAcross .cf (.nvData u.1 u.2.1 u.2.2)).modNv fun n =>
    { n with
      buffer := keyPut n.buffer u.1 new, entered := n.entered ++ [(order, u.1, u.2.1, u.2.2.length)]
      firstAt := some (n.firstAt.getD s.time) }

/-- A commit of the buffer starts (R379), unless one runs or there is nothing to commit. -/
def State.nvStart (s : State) : State :=
  if s.nv.running.isSome || s.nv.buffer.isEmpty then s
  else s.modNv fun n => { n with running := some (n.last + 1), last := n.last + 1 }

/-- The number of the transaction that will hold what enters the buffer now. -/
def State.nvNext (s : State) : Nat := s.nv.last + 1

/-- The recovery record of a command (Table 9.14). -/
def recoveryRecord (c : Cmd) (txn : Nat) : Bytes :=
  leBytes 4 c.hseq ++ leBytes 2 c.opcode ++ leBytes 2 c.tag ++ leBytes 6 txn ++ [1, 0]

/-- A command has entered the buffer: it waits for the transaction. -/
def enteredWait (txn : Nat) (w : Wait) : Wait :=
  match w with
  | .nvQueued r => .nv txn r
  | .commitNv none vals => .commitNv (some txn) vals
  | .calNv none => .calNv (some txn)
  | .transfer part none => .transfer part (some txn)
  | .download part data none => .download part data (some txn)
  | _ => w

/-- The command that a write belongs to. -/
def State.nvOwner (s : State) (g : NvGroup) : Option (Ctx × Cmd) :=
  g.owner.bind fun o => ((s.ctx o.1).inflight.find? fun c => c.tag % 2048 == o.2).map fun c => (o.1, c)

/-- The command of a write has a recovery record: it is a persistent one (R285), which a part of a download is not. -/
def recorded (c : Cmd) : Bool := c.opcode != 0x8001

/-- A write is in the buffer: its command waits for the transaction, which also holds the command's recovery record (R285), and so
does what else follows from it. -/
def State.nvEntered (s : State) (g : NvGroup) (txn : Nat) : State :=
  match s.nvOwner g with
  | none => if g.act == .bundle then { s with pair := { s.pair with bundleTxn := some txn } } else s
  | some (x, c) =>
    let s := if recorded c then s.nvEnter g.order (16, 16 * x.val, recoveryRecord c txn) else s
    let s : State := if c.wait == .calNv none then { s with session := s.session.map fun k => { k with txn := some txn } } else s
    s.modCmd x c.tag fun d => { d with wait := enteredWait txn d.wait }

/-- The state of a firmware slot as the next transaction would leave it. -/
def State.slotPending (s : State) (slot : Nat) : Nat := leAt (s.nvPending fwPage) slot 1

/-- What a write that waited finds as it enters the buffer: a close of a period that finds the log full by now ends NV_FULL (R389), and
an FW_VERIFY or FW_ACTIVATE whose slot has been erased meanwhile, or is VERIFIED no more, ends as one that starts then (R317). -/
def State.entryRefusal (s : State) (g : NvGroup) (c : Cmd) : Option Status :=
  match g.act with
  | .close _ => if s.ledgerFull then some .nvFull else none
  | _ =>
    let slot := (g.ups.head?.map (·.2.1)).getD 0
    if c.opcode = 0x8002 && s.slotPending slot = 0 then some .imageBad
    else if c.opcode = 0x8003 && s.slotPending slot ≠ 2 then some .badParam
    else none

/-- A write enters the buffer, unless its command has been overtaken. -/
def State.nvTake (s : State) (g : NvGroup) : State :=
  match (s.nvOwner g).bind fun e => (s.entryRefusal g e.2).map fun st => (e, st) with
  | some (e, st) => s.complete e.1 e.2 st
  | none =>
    let s := match s.nvOwner g, g.act with
      | some (x, c), .close _ => s.await x c (.nvQueued (some s.ledger.openIdx))
      | _, _ => s
    let a := s.nvAct g
    let s := (a.2.foldl (State.nvEnter · g.order ·) a.1).nvEntered g a.1.nvNext
    if g.now then s.nvStart else s

/-- The pages that a write enters, its recovery record's among them. -/
def State.nvPages (s : State) (g : NvGroup) : List Nat :=
  let own := match g.act with
    | .summary => [256]
    | .close _ => [256, 257 + s.ledger.openIdx / 8]
    | .params vals => (s.withEntered.withStaged vals).persistentUps vals |>.map (·.1)
    | _ => g.ups.map (·.1)
  if g.owner.isSome then 16 :: own else own

/-- The pages of a write fit the buffer. -/
def State.nvFits (s : State) (g : NvGroup) : Bool :=
  let fresh := ((s.nvPages g).filter fun p => (keyGet s.nv.buffer p).isNone).eraseDups
  s.nv.buffer.length + fresh.length ≤ 64

/-- An NV_WRITE fetched before an order has not entered the buffer yet. -/
def State.nvOlder (s : State) (order : Nat) : Bool :=
  s.ctxs.any fun k => k.inflight.any fun c => c.opcode == 0x6002 && decide (c.order < order)
    && (match c.wait with | .notStarted | .nvQueued _ => true | _ => false)

/-- NV_COMMIT waits for the writes fetched before it (R376), and a transfer for the end of another one, which holds the transfer record
(R309; log 149); others follow in the order in which they came. -/
def State.nvHeldBack (s : State) (g : NvGroup) : Bool :=
  let record := match g.act with
    | .transfer _ => s.sec.otp.transfer.isSome
    | _ => false
  record || match s.nvOwner g with
    | some (_, c) => c.opcode == 0x6003 && s.nvOlder c.order
    | none => false

/-- Writes that wait enter the buffer in order, as far as they fit; the first that does not fit starts a commit. -/
def State.nvDrain (s : State) : Nat → State
  | 0 => s
  | n + 1 =>
    if s.nv.running.isSome then s
    else
      match s.nv.waiting.find? fun g => !s.nvHeldBack g with
      | none => s
      | some g =>
        if s.nvFits g then ((s.modNv fun n => { n with waiting := n.waiting.erase g }).nvTake g).nvDrain n else s.nvStart

/-- What can enter the buffer does. -/
def State.nvSettle (s : State) : State := s.nvDrain s.nv.waiting.length

/-- A command to the NV store crosses the guyline in class CONTROL (R43): with each update that it brings, or by itself. -/
def State.nvTraffic (s : State) (g : NvGroup) (c : Cmd) : State :=
  if g.ups.isEmpty then s.sendAcross .cf (.nvCommand c.opcode 0 0 0)
  else g.ups.foldl (fun s u => s.sendAcross .cf (.nvCommand c.opcode u.1 u.2.1 u.2.2.length)) s

/-- A write comes to the buffer. One of the device itself counts as fetched now (log 129). -/
def State.nvSubmit (s : State) (g : NvGroup) : State :=
  let order := ((s.nvOwner g).map (·.2.order)).getD s.fetches
  let s := match s.nvOwner g with
    | some e => s.nvTraffic g e.2
    | none => s
  (s.modNv fun n => { n with waiting := n.waiting ++ [{ g with order }] }).nvSettle

/-- The device writes a record of its own (R372); with fewer than 64 spares it does not commit (R382). -/
def State.nvPut (s : State) (page off : Nat) (b : Bytes) (now : Bool := false) : State :=
  if s.nv.spares.length < 64 then s else s.nvSubmit { ups := [(page, off, b)], now, owner := none }

/-- The NV store is reached over the guyline. -/
def State.nvUp (s : State) : Bool := s.fdieUp

/-- A command waits in its way for the transaction that holds its updates. -/
def State.persistAs (s : State) (x : Ctx) (c : Cmd) (w : Wait) (ups : List (Nat × Nat × Bytes)) (now : Bool) (act : NvAct := .plain) :
    State :=
  if s.nv.spares.length < 64 then s.complete x c .nvFull
  else (s.await x c w).nvSubmit { ups, now, owner := some (x, c.tag % 2048), act }

/-- A persistent command waits for the transaction that holds its effect (R285). -/
def State.persist (s : State) (x : Ctx) (c : Cmd) (ups : List (Nat × Nat × Bytes)) (now : Bool) (result : Option Nat) :
    State := s.persistAs x c (.nvQueued result) ups now

/-- The check of a page that is read (R381): a recovered page raises the event, and its contents are written back unless an update of
the page is already on its way. -/
def State.nvCheck (s : State) (page : Nat) : State :=
  let f := s.nvLook page
  if !f.recovered then s
  else
    let pending := (keyGet s.nv.buffer page).isSome || s.nv.waiting.any fun g => g.ups.any fun u => u.1 == page
    let s := s.nvNotice page f
    if f.how = 0 && !pending then s.nvPut page 0 f.data else s

/-- A read of a page, by a command or by the device itself: its check, and its data cross the guyline (R43, R381). -/
def State.nvFetch (s : State) (page : Nat) : Bytes × State :=
  let d := (s.nvLook page).data
  (d, (s.nvCheck page).sendAcross .fc (.nvData page 0 d))

/-- Pages are read. -/
def State.nvFetchAll (s : State) (pages : List Nat) : State := pages.foldl (fun s p => (s.nvFetch p).2) s

/-! Regions (Table 13.1). -/

def regionBase (r : Nat) : Nat := if r = 0 then 0 else if r = 1 then 256 else 768 + 512 * (r - 2)
def regionPages (r : Nat) : Nat := if r = 0 then 256 else 512

/-- The pages of an NV_READ are read and written to its area. -/
def State.nvReadNow (s : State) (x : Ctx) (c : Cmd) (sg : Nat) : State :=
  let r := leAt c.payload 0 1
  let n := leAt c.payload 1 1
  let first := regionBase r + leAt c.payload 2 2
  if s.sgLength x c sg < 256 * n then s.complete x c .badParam
  else if let some st := s.areaStop x c false then s.complete x c st
  else
    let got := (List.range n).foldl (fun (a : Bytes × Bool × State) i =>
      let f := a.2.2.nvLook (first + i)
      (a.1 ++ f.data, a.2.1 || f.recovered, (a.2.2.nvFetch (first + i)).2))
      ([], false, s.sendAcross .cf (.nvCommand c.opcode first 0 (256 * n)))
    (got.2.2.sgWrite x c got.1).complete x c (if got.2.1 then .doneMarked else .done) n

/-- NV_READ commands that waited for the running commit go on (R374). -/
def State.nvReadsGoOn (s : State) : State :=
  allCtx.foldl (fun s x => ((s.ctx x).inflight).foldl (fun s c =>
    match c.wait with
    | .nvRead sg => s.nvReadNow x c sg
    | _ => s) s) s

/-! The end of a commit (R379, R382). -/

def wearOf (wear : List (Nat × Nat)) (p : Nat) : Nat := (keyGet wear p).getD 0

/-- The spare with the lowest write count, the lowest number among equals. -/
def leastWorn (wear : List (Nat × Nat)) : List Nat → Option Nat
  | [] => none
  | a :: r => some (r.foldl (fun b p =>
      let k := wearOf wear p
      let m := wearOf wear b
      if k < m || (k == m && decide (p < b)) then p else b) a)

/-- A spare is taken and written. -/
def Nv.takeSpare (n : Nv) : Option Nat × Nv :=
  match leastWorn n.wear n.spares with
  | none => (none, n)
  | some p => (some p, { n with spares := n.spares.filter (· != p), wear := keyPut n.wear p (wearOf n.wear p + 1) })

/-- The spares that fail their read-back leave the pool: the first ones that the commit takes. -/
def Nv.retire (n : Nv) : Nat → Nv
  | 0 => n
  | k + 1 => n.takeSpare.2.retire k

/-- Buffered pages are written into spares (R379 step 1). Answers each page's new copy. -/
def Nv.writeCopies (n : Nv) (txn : Nat) : List (Nat × Bytes) → List (Nat × NvCopy) × Nv
  | [] => ([], n)
  | e :: r =>
    let p := n.takeSpare
    let new : NvCopy := { phys := p.1.getD 0, data := e.2, crc := BitVec.ofNat 32 (crc32c e.2), txn }
    let rest := p.2.writeCopies txn r
    ((e.1, new) :: rest.1, rest.2)

/-- The commit record of a transaction (R379 step 2): its number, the page count, each page's logical and physical number and
CRC-32C, and the record's own CRC-32C. The widths are the model's (log 5). -/
def commitRecord (txn : Nat) (copies : List (Nat × NvCopy)) : Bytes :=
  let body := leBytes 6 txn ++ leBytes 2 copies.length
    ++ copies.flatMap fun e => leBytes 2 e.1 ++ leBytes 2 e.2.phys ++ leBytes 4 e.2.crc.toNat
  body ++ leBytes 4 (crc32c body)

/-- The commit record is written to the next journal page, once more where its read-back failed. -/
def Nv.journal (n : Nv) (rec : Bytes) (times : Nat) : Nv :=
  let p := 4032 + n.journalAt
  { n with wear := keyPut n.wear p (wearOf n.wear p + times), records := keyPut n.records p rec, journalAt := (n.journalAt + 1) % 64 }

/-- A page takes its new copy, and the copy before it becomes the previous one. -/
def Nv.mapPage (n : Nv) (e : Nat × NvCopy) : Nv :=
  if n.pages.any fun p => p.page == e.1 then
    { n with pages := n.pages.map fun q => if q.page = e.1 then { q with cur := e.2, prev := some q.cur } else q }
  else
    let first : NvCopy := { phys := e.1, data := zeroPage, crc := BitVec.ofNat 32 (crc32c zeroPage), txn := 0 }
    { n with pages := n.pages ++ [{ page := e.1, cur := e.2, prev := some first }] }

/-- The previous copies that return to the spare pool once a transaction with their pages has committed. -/
def Nv.freed (n : Nv) (copies : List (Nat × NvCopy)) : List Nat :=
  copies.filterMap fun e => (n.pages.find? fun p => p.page == e.1).bind fun p => p.prev.map (·.phys)

/-- The new mapping takes effect (R379 step 3). -/
def Nv.mapAll (n : Nv) (copies : List (Nat × NvCopy)) : Nv :=
  let m := copies.foldl Nv.mapPage n
  { m with spares := m.spares ++ n.freed copies }

/-- The buffer is empty, and no commit runs. -/
def Nv.emptied (n : Nv) : Nv := { n with buffer := [], entered := [], firstAt := none, running := none }

/-- The buffered pages as a transaction commits them: retired spares, and writes of the commit record. -/
def Nv.commitAll (n : Nv) (txn : Nat) (retired : Nat := 0) (records : Nat := 1) : Nv :=
  let w := (n.retire retired).writeCopies txn n.buffer
  ({ ((w.2.journal (commitRecord txn w.1) records).mapAll w.1) with txn, last := max n.last txn } : Nv).emptied

/-- A transaction is abandoned (R382): at the fifth spare that fails, with done pages written by then, or as its record fails twice,
with all of them. What was written to good spares wears them, and they stay in the pool. -/
def Nv.abandon (n : Nv) (txn retired done : Nat) : Nv :=
  let early := decide (5 ≤ retired)
  let w := (n.retire (min 5 retired)).writeCopies txn (if early then n.buffer.take done else n.buffer)
  let m := if early then w.2 else w.2.journal (commitRecord txn w.1) 2
  ({ m with spares := m.spares ++ w.1.map (·.2.phys) } : Nv).emptied

/-- A command that waits for a transaction completes. -/
def nvOutcome (txn : Nat) (ok : Bool) (w : Wait) : Option (Status × Nat) :=
  match w with
  | .nv n r => if n = txn then some (if ok then (.done, r.getD (txn % 2 ^ 32)) else (.nvCommitFail, 0)) else none
  | .commitNv (some n) _ | .calNv (some n) => if n = txn && !ok then some (.nvCommitFail, 0) else none
  | .download part data (some n) =>
    if n = txn && !(ok && part = 1) then some (if ok then (.done, data.length) else (.nvCommitFail, 0)) else none
  | .transfer part (some n) => if n = txn && !(ok && part = 1) then some (if ok then .done else .nvCommitFail, 0) else none
  | _ => none

/-- What a command waits for once its transaction has been committed: a commit waits for the first tick (R289), and
CAL_IMPORT_END for its activation (R190), which on a LEAD waits for the PARTNER (R335). -/
def committedWait (txn : Nat) (now : Time) (lead : Bool) (w : Wait) : Wait :=
  match w with
  | .commitNv (some n) vals => if n = txn then .commitApply vals now else w
  | .calNv (some n) => if n = txn && !lead then .activation else w
  | _ => w

/-- A transaction holds the identity of the bundle under import. -/
def State.holdsIdentity (s : State) (txn : Nat) : Bool := s.act == .committing && s.session.any fun k => k.txn == some txn

/-- Both devices of a pair hold the bundle: the activation may begin, and END waits for it (R335). -/
def State.bundleReady (s : State) : State :=
  { s with
    act := .waiting s.time, pair := { s.pair with peerBundle := none, ownBundle := false }
    ctxs := s.ctxs.map fun k => { k with inflight := k.inflight.map fun c =>
      { c with wait := match c.wait with | .calNv (some _) => .activation | w => w } } }

/-- The PARTNER's digest check or commit failed: END completes with its status, and nothing is activated (R335). A failed digest
ends the session as one of the LEAD's own does (R190). -/
def State.bundleRefused (s : State) (st : Status) : State :=
  let s : State := { s with act := .none, pair := { s.pair with peerBundle := none, ownBundle := false } }
  let s := s.completeWhere fun _ c => match c.wait with | .calNv (some _) => some (st, 0) | _ => none
  if st = .authFail then s.cancelSession 6 else s

/-- This LEAD's own commit of an import is done: the outcome follows the PARTNER's answer, when it is there. -/
def State.ownCommitted (s : State) : State :=
  match s.pair.peerBundle with
  | none => { s with pair := { s.pair with ownBundle := true } }
  | some 0 => s.bundleReady
  | some st => s.bundleRefused (statusOf st)

/-- The commands that go on after a transaction, and the activation that follows the identity's commit, whatever has become of its
END (R191). After a failure END may be repeated, and the PARTNER keeps what it has (R190, R335). -/
def State.committed (s : State) (txn : Nat) (ok : Bool) : State :=
  let cal := s.holdsIdentity txn
  let lead := s.isLead
  let s : State := if cal && !(ok && lead) then { s with act := if ok then .waiting s.time else .none } else s
  let s : State := if cal && !ok then { s with pair := { s.pair with peerBundle := none } } else s
  let s : State := if ok then
      { s with ctxs := s.ctxs.map fun k =>
        { k with inflight := k.inflight.map fun c => { c with wait := committedWait txn s.time lead c.wait } } }
    else s
  if cal && ok && lead then s.ownCommitted else s

/-- This PARTNER answers the LEAD on the bundle under transfer; in a join a refusal ends the join (R335). -/
def State.answerBundle (s : State) (st : Status) : State :=
  let s := s.pairSend .bundle ([3] ++ leBytes 1 st.code)
  if st != .done && s.pair.mode == .joining then s.joinFails st else s

/-- This PARTNER's commit of a bundle's identity ends: it answers the LEAD, and the session waits for the LEAD's word; in a join the
activation begins at once, and the answer follows it (R335, Table 11.5 step 4). -/
def State.bundleCommitted (s : State) (txn : Nat) (ok : Bool) : State :=
  match s.pair.transfer with
  | none => s
  | some k =>
    if s.pair.bundleTxn != some txn then s
    else
      let s : State := { s with pair := { s.pair with bundleTxn := none } }
      if ok then
        let joining := s.pair.mode == .joining
        let act : Activation := if joining then .waiting s.time else .committing
        let s : State := { s with session := some { k with verified := true }, act, pair := { s.pair with transfer := none } }
        if joining then s else s.answerBundle .done
      else s.answerBundle .nvCommitFail

/-- The pool has fallen below 80 pages (R382). -/
def State.nvPool (s : State) : State :=
  if s.nv.spares.length < 80 && !s.nv.low then
    (s.modNv fun n => { n with low := true }).devEvent 0x0B03 (leBytes 1 s.nv.spares.length)
  else s

/-- The end of a commit: the new mapping, or the abandoned transaction. How many pages were written before a fifth spare failed is a
free value (log 130). -/
def State.nvEnd (s : State) (txn retired recordFails : Nat) : State :=
  let pages := s.nv.buffer
  let ok := decide (retired < 5) && decide (recordFails < 2)
  let v := if retired < 5 then (0, s) else s.takeFree 6
  let s := v.2.modNv fun n =>
    if ok then n.commitAll txn retired (1 + recordFails) else n.abandon txn retired (v.1 % max 1 pages.length)
  let s := if ok then (s.perfEvent 4 0x10).perfEvent 4 0x11 pages.length
    else (s.bump .nvCommitFailCnt).devEvent 0x0B01 (leBytes 6 txn ++ leBytes 1 pages.length)
  let s := ((s.committed txn ok).bundleCommitted txn ok).completeWhere fun _ c => nvOutcome txn ok c.wait
  s.nvReadsGoOn.nvPool.nvSettle

/-! Passwords (R384, R385). The password store keeps region r's read password in bytes 0 to 15 and its write password in
bytes 16 to 31 of page 240 + r (log 5). -/

def noPassword : Bytes := List.replicate 16 0

def State.password (s : State) (r : Nat) (write : Bool) : Bytes :=
  sliceB (if write then 16 else 0) 16 (s.nvLook (240 + r)).data

/-- A comparison of a password: the failure count, and the lock at 8 (R385). Answers whether it passed. -/
def State.tryPassword (s : State) (x : Ctx) (r : Nat) (need given : Bytes) : Bool × State :=
  let s := s.nvCheck (240 + r)
  if need == noPassword then (true, s)
  else if need == given then (true, s.modNv fun n => { n with fails := n.fails.set r 0 })
  else
    let k := s.nv.fails.getD r 0 + 1
    let s := s.modNv fun n => { n with fails := n.fails.set r k }
    if k < 8 then (false, s)
    else
      (false, (s.modNv fun n => { n with lock := n.lock ||| BitVec.ofNat 8 (2 ^ r) }).devEvent 0x0B02
        (leBytes 1 r ++ leBytes 1 x))

def State.nvLocked (s : State) (r : Nat) : Bool := s.nv.lock.getLsbD r

/-! NV_READ (R373, R374). -/

/-- The pages touch the running commit. -/
def State.nvBusy (s : State) (first n : Nat) : Bool :=
  s.nv.running.isSome && s.nv.buffer.any fun e => first ≤ e.1 && e.1 < first + n

def State.nvRead (s : State) (x : Ctx) (c : Cmd) (sg : Nat) : State :=
  let r := leAt c.payload 0 1
  let n := leAt c.payload 1 1
  let page := leAt c.payload 2 2
  if !s.nvUp then s.complete x c .failedFault
  else if c.payload.length ≠ 20 || 7 < r || !within 1 16 n || regionPages r < page + n then s.complete x c .badParam
  else if r = 0 && 240 < page + n then s.complete x c .notPermitted
  else if s.nvLocked r then s.complete x c .locked
  else
    let p := s.tryPassword x r (s.password r false) (sliceB 4 16 c.payload)
    if !p.1 then p.2.complete x c .authFail
    else if p.2.nvBusy (regionBase r + page) n then p.2.await x c (.nvRead sg)
    else p.2.nvReadNow x c sg

def execNvRead (t : Time) (x : Ctx) (tag : BitVec 11) (sg : Nat) (s : State) : Host.Outcome State Fault Refusal :=
  .next (s.command t x tag 0x6001 fun s c => s.nvRead x c sg)

/-! NV_WRITE (R372, R373, R375). -/

/-- The updates of a byte string from an offset of a page on. -/
def splitPages (page off : Nat) (b : Bytes) : Nat → List (Nat × Nat × Bytes)
  | 0 => []
  | n + 1 => if b.isEmpty then [] else (page, off, b.take (256 - off)) :: splitPages (page + 1) 0 (b.drop (256 - off)) n

def State.nvWrite (s : State) (x : Ctx) (c : Cmd) (area : Bytes) : State :=
  let p := c.payload
  let op := leAt p 0 1
  let r := leAt p 1 1
  let page := leAt p 2 2
  let off := leAt p 4 1
  let len := leAt p 6 2
  let inl := p.length == 24 + len
  let data := if inl then sliceB 24 len p else (s.sgRead x c area).take len
  let owner := s.roleOf x == 1
  let shape := p.length == 24 || inl
  let pw := op != 0
  if !s.nvUp then s.complete x c .failedFault
  else if !shape || 2 < op || 7 < r || leAt p 5 1 ≠ 0 || !within 1 4096 len || regionPages r * 256 < page * 256 + off + len
      || (op == 2 && r < 2) || (pw && (page != 0 || off != 0 || len != 16)) || data.length < len then
    s.complete x c .badParam
  else if let some st := (if inl then none else s.areaStop x c true) then s.complete x c st
  else if r < 2 && (op == 0 || !owner) then s.complete x c .notPermitted
  else if s.nvLocked r then s.complete x c .locked
  else if s.nv.spares.length < 80 then s.complete x c .nvFull
  else
    let need := if pw && owner then noPassword else s.password r true
    let k := s.tryPassword x r need (sliceB 8 16 p)
    if !k.1 then k.2.complete x c .authFail
    else
      let ups := if pw then [(240 + r, if op = 1 then 0 else 16, data)] else splitPages (regionBase r + page) off data 18
      k.2.persist x c ups false none

def execNvWrite (t : Time) (x : Ctx) (tag : BitVec 11) (area : Bytes) (s : State) : Host.Outcome State Fault Refusal :=
  .next ((s.command t x tag 0x6002 fun s c => s.nvWrite x c area).nvSettle)

/-! NV_COMMIT, NV_UNLOCK and the events. -/

/-- NV_COMMIT (R376): what the buffer holds is committed at once. The command's own recovery record (R285) follows the writes fetched
before it into the buffer, and RESULT is the number of the transaction that holds it (log 129). -/
def State.nvCommit (s : State) (x : Ctx) (c : Cmd) : State :=
  if !s.nvUp then s.complete x c .failedFault
  else if !c.payload.isEmpty then s.complete x c .badParam
  else if s.nv.running.isNone && s.nv.buffer.isEmpty && s.nv.waiting.isEmpty && !s.nvOlder c.order then
    (s.sendAcross .cf (.nvCommand c.opcode 0 0 0)).complete x c .done (s.nv.txn % 2 ^ 32)
  else
    let s := (s.await x c (.nvQueued none)).nvSubmit { ups := [], now := true, owner := some (x, c.tag % 2048) }
    if s.nvOlder c.order then s.nvStart else s

def execNvCommit (t : Time) (x : Ctx) (tag : BitVec 11) (s : State) : Host.Outcome State Fault Refusal :=
  .next (s.command t x tag 0x6003 fun s c => s.nvCommit x c)

/-- NV_UNLOCK (R377). -/
def State.nvUnlock (s : State) (x : Ctx) (c : Cmd) : State :=
  let mask := leAt c.payload 0 1
  if !s.nvUp then s.complete x c .failedFault
  else if c.payload.length ≠ 4 || leAt c.payload 1 3 ≠ 0 then s.complete x c .badParam
  else
    let old := s.nv.lock.toNat
    ((s.sendAcross .cf (.nvCommand c.opcode mask 0 0)).modNv fun n =>
      { n with
        lock := n.lock &&& ~~~(BitVec.ofNat 8 mask)
        fails := n.fails.mapIdx fun r k => if bitOf mask r then 0 else k }).complete x c .done old

def execNvUnlock (t : Time) (x : Ctx) (tag : BitVec 11) (s : State) : Host.Outcome State Fault Refusal :=
  .next (s.command t x tag 0x6004 fun s c => s.nvUnlock x c)

/-- NV_AUTOCOMMIT_EXPIRY (R378): the first page has been in the buffer for NV_AUTOCOMMIT milliseconds. -/
def execNvAutocommitExpiry (t : Time) (s : State) : Host.Outcome State Fault Refusal :=
  let s := s.advance t
  match s.nv.firstAt with
  | some a => if a + s.par .nvAutocommit * 1000000 ≤ s.time then .next s.nvStart else .next s
  | none => .next s

end Sys2Proof.Machine
end

