-- ==== Sys2Proof/Machine/LedgerOps.lean ====
section
/-!
DEFINITION. The service ledger (R386 to R390, Tables 13.5 and 13.6): operating minutes, ledger time, usage periods and the
thermal log, with the commands LEDGER_READ and LEDGER_CLOSE_PERIOD.
-/
namespace Sys2Proof.Machine

/-- The summary goes to the commit buffer, as it stands when it enters. The close pulses and the flag of the open period have no field
in it: they survive a reset as they stand (log 5). -/
def State.ledgerPut (s : State) : State :=
  if s.nv.spares.length < 64 then s else s.nvSubmit { ups := [], now := false, owner := none, act := .summary }

/-- The band of a governing temperature (R387), VALUE scale. -/
def bandIndex (v : Nat) : Nat :=
  if 2944 ≤ v then 7 else if 2784 ≤ v then 6 else if 2624 ≤ v then 5 else if 2384 ≤ v then 4 else if 2144 ≤ v then 3
  else if 1664 ≤ v then 2 else if 1024 ≤ v then 1 else 0

/-- An event of the thermal log (R387): the counts, the log entry and the summary. -/
def State.thermalLog (s : State) (code sensor value : Nat) (count : Ledger → Ledger) : State :=
  let l := count s.ledger
  let e := leBytes 4 l.time ++ leBytes 4 l.minutes ++ leBytes 2 code ++ leBytes 1 sensor ++ [0] ++ leBytes 2 value ++ [0, 0]
  let log := if l.log.length < 8 then l.log ++ [e] else l.log.drop 1 ++ [e]
  ({ s with ledger := { l with log } } : State).ledgerPut

/-- OPERATING_MINUTE (R386, R387, R413): a full minute of the time base powered and out of reset. -/
def State.minute (s : State) : State :=
  let band := bandIndex s.thm.peak
  let new := s.drift.map (·.actsNew)
  let l := s.ledger
  let s := s.modLedger fun _ =>
    { l with
      minutes := l.minutes + 1, bands := l.bands.modify band (· + 1)
      pulses := l.pulses.mapIdx fun t n => n + new.getD t 0
      openMin := l.openMin + 1, openPulses := l.openPulses + new.sum }
  let s : State := { s with drift := s.drift.map fun d => { d with actsNew := 0 } }
  let left (d : Debug) : Nat := if d.level = 0 || d.forever then d.minutes else d.minutes - 1
  let now := if s.links.gln = .down then max s.thm.gov s.thm.govF else s.thm.gov
  ({ s with thm := { s.thm with peak := now }, dbg := { s.dbg with minutes := left s.dbg } } : State).ledgerPut

def execOperatingMinute (t : Time) (s : State) : Host.Outcome State Fault Refusal :=
  let s := s.advance t
  if s.hk.on then .next s.minute else .next s

/-- LEDGER_SECOND (R388): ledger time advances while the device operates. -/
def execLedgerSecond (t : Time) (s : State) : Host.Outcome State Fault Refusal :=
  let s := s.advance t
  if s.hk.on then .next (s.modLedger fun l => { l with time := l.time + 1 }) else .next s

/-- LEDGER_HOST_TIME_WRITE (R388): the register is one of the F-die. -/
def execLedgerHostTimeWrite (t : Time) (h : Word) (s : State) : Host.Outcome State Fault Refusal :=
  .next ((s.advance t).writeAcross (Param.ledgerHostTime.id 0) h.toNat fun s => s.ledgerHostTime h.toNat)

/-- LEDGER_CLOSE_PERIOD (R389): OWNER, or SERVICE with the right to close. The period closes as the command enters the commit
buffer: one that ends before leaves it open (R276). -/
def State.ledgerClose (s : State) (x : Ctx) (c : Cmd) : State :=
  if !s.nvUp then s.complete x c .failedFault
  else if c.payload.length ≠ 12 then s.complete x c .badParam
  else if s.roleOf x ≠ 1 && !s.grantRight x 1 then s.complete x c .notPermitted
  else if s.ledgerFull then s.complete x c .nvFull
  else s.persistAs x c (.nvQueued none) [] true (.close c.payload)

def execLedgerClosePeriod (t : Time) (x : Ctx) (tag : BitVec 11) (s : State) : Host.Outcome State Fault Refusal :=
  .next (s.command t x tag 0x6011 fun s c => s.ledgerClose x c)

/-- LEDGER_READ (R390): the committed summary and period entries. Before the first commit the summary is that of a new
ledger. -/
def State.ledgerRead (s : State) (x : Ctx) (c : Cmd) (sg : Nat) : State :=
  let first := leAt c.payload 0 2
  let n := leAt c.payload 2 2
  if !s.nvUp then s.complete x c .failedFault
  else if c.payload.length ≠ 20 || 256 < n then s.complete x c .badParam
  else if s.nvLocked 1 then s.complete x c .locked
  else
    let p := s.tryPassword x 1 (s.password 1 false) (sliceB 4 16 c.payload)
    if !p.1 then p.2.complete x c .authFail
    else
      let log := ((List.range n).map fun i => 257 + (first + i) / 8).filter fun q => q < 289
      let s := (p.2.sendAcross .cf (.nvCommand c.opcode 256 first n)).nvFetchAll (256 :: log.eraseDups)
      let sum := if (s.nvMap 256).isSome then (s.nvLook 256).data else Ledger.reset.bytes
      let entry (i : Nat) : Bytes :=
        let k := first + i
        if k < 256 then sliceB (32 * (k % 8)) 32 (s.nvLook (257 + k / 8)).data else List.replicate 32 0
      s.writeRecord x c sg (sum ++ (List.range n).flatMap entry) (256 + 32 * n)

def execLedgerRead (t : Time) (x : Ctx) (tag : BitVec 11) (sg : Nat) (s : State) : Host.Outcome State Fault Refusal :=
  .next (s.command t x tag 0x6010 fun s c => s.ledgerRead x c sg)

end Sys2Proof.Machine
end

