-- ==== Sys2Proof/Machine/ThermalOps.lean ====
section
/-!
DEFINITION. Thermal monitoring, throttling and shutdown (R360 to R366), the end of a housekeeping entry (R104, R152), and how
a paired device leaves its pair (R338).
-/
namespace Sys2Proof.Machine

/-! Leaving the pair (R338). -/

/-- A transfer of a bundle to this PARTNER ends with the pair: its session is discarded unless its activation has begun (R335). -/
def State.dropTransfer (s : State) : State :=
  if s.pair.role = 1 && s.act == .committing then { s with session := none, act := .none } else s

/-- A device without its peer: DETACHED, TOWN low and PAIR_ALIVE_O stopped. Its bias outputs hold. What it waited for from the peer
has failed, but for an import whose identity it has committed: that goes on alone (R191). -/
def State.detach (s : State) : State :=
  let alone := s.pair.ownBundle
  let s := s.dropTransfer
  let s : State := { s with pair := { s.pair.apart .detached 0 with alive := false } }
  let s := if alone then s.bundleReady else s
  s.publishGeometry.completeInOrder fun _ c => match c.wait with
    | .pairHandover _ | .forwarded => some (.failedFault, 0)
    | _ => none

/-- A paired device leaves: the LEAVING heartbeat with its cause goes out (R338, Table 11.9). -/
def State.leavePair (s : State) (cause : Nat) : State :=
  if s.pair.mode = .paired then
    (({ s with pair := { s.pair with leaveCause := cause } } : State).sendHeartbeat true cause).detach
  else s

/-! The sensors (R360 to R362). -/

def State.modThm (s : State) (f : Thermal → Thermal) : State := { s with thm := f s.thm }

def dieOf (i : Nat) : List Nat := if i < 6 then List.range 6 else (List.range 8).map (· + 6)

def State.sensorBroken (s : State) (i : Nat) : Bool := s.thm.broken.getLsbD i
def State.sensorUsable (s : State) (i : Nat) : Bool := !s.sensorBroken i && s.hkGood i

/-- The median of the neighbours (R360). -/
def medianOf (vals : List Nat) : Nat :=
  let v := vals.mergeSort
  let n := v.length
  if n % 2 = 1 then v.getD (n / 2) 0 else (rnd (v.getD (n / 2 - 1) 0 + v.getD (n / 2) 0 : Nat) 2).toNat

/-- A sensor has deviated three times (R360, R361). -/
def State.breakSensor (s : State) (i med : Nat) : State :=
  let left := ((dieOf i).filter fun j => !s.sensorBroken j).length - 1
  if left < 3 then
    if s.thm.conflict.getLsbD i then s
    else (s.modThm fun k => { k with conflict := k.conflict ||| BitVec.ofNat 14 (2 ^ i) }).devEvent 0x0905 (leBytes 1 i)
  else
    (s.modThm fun k => { k with broken := k.broken ||| BitVec.ofNat 14 (2 ^ i) }).devEvent 0x0904
      (leBytes 1 i ++ [0] ++ leBytes 2 (s.hkValue i) ++ leBytes 2 med)

/-- The check of one sensor against its neighbours; usable says which sensors passed the test before the round's checks. -/
def State.checkSensor (s : State) (usable : List Nat) (i : Nat) : State :=
  let near := (dieOf i).filter fun j => j != i && usable.contains j
  if !usable.contains i || near.length < 2 then s
  else
    let med := medianOf (near.map s.hkValue)
    let far := 192 < ((s.hkValue i : Int) - med).natAbs
    let n := if far then min 3 (s.thm.dev.getD i 0 + 1) else 0
    let s := s.modThm fun k => { k with dev := k.dev.set i n }
    if n = 3 then s.breakSensor i med else s

/-! Levels (R363 to R365). -/

/-- The stage changes: THM_THROTTLE (Table 12.10). -/
def State.stageEvent (s : State) (n : Nat) : State :=
  s.devEvent 0x0901 (leBytes 1 n ++ leBytes 1 s.thm.govSensor ++ leBytes 2 s.thm.gov)

/-- D follows the throttle stage, and in a pair the peer's demand (R27, R329, R364). -/
def State.setDivider (s : State) : State :=
  { s with tick := { s.tick with d2 := s.thm.stage == 2 || (s.pair.mode == .paired && s.pair.peerD2) } }

/-- Stage 2 begins: D is 2, and the ledger takes note (R364, R387). -/
def State.enterStage2 (s : State) : State :=
  let s := ((s.modThm fun k => { k with stage := 2, stage2Due := false }).bump .thmThrottleCnt).setDivider.stageEvent 2
  s.thermalLog 0x0901 s.thm.govSensor s.thm.gov fun l => { l with stage2 := satAdd 0xFFFF l.stage2 1 }

/-- Tiles at a thermal shutdown: unbiased, or in a pair held with the control outputs low (R338, R365). -/
def State.shutdownTiles (s : State) (paired : Bool) : State :=
  if paired then
    { s with tiles := s.tiles.map fun k =>
      { k with control := false, woken := false, wave := .low, integ := none, holds := none } }
  else s.shutTiles

/-- The flysheet drivers go low, and running cycles abort with cause SHUTDOWN. -/
def State.flyShutdown (s : State) : State :=
  allTiles.foldl (fun s t => s.driveOff t) (s.flyAbortAll 9 s.time)

/-- Replay stops; the spec lists no cause for it, so the cause is a free value. -/
def State.replayShutdown (s : State) : State :=
  if s.aux.op = 0 then s
  else
    let r := s.takeFree 4
    r.2.endReplay r.1

/-- In a pair the bias outputs hold, and where the device has left the pair for the present cause (R338, R365). -/
def State.biasHolds (s : State) (left : Bool) : Bool := s.pair.mode == .paired || left

/-- The F-die's part of a thermal shutdown: step 2 of R365. left: the C-die raised it in a pair. -/
def State.shutdownF (s : State) (left : Bool) : State := s.flyShutdown.shutdownTiles (s.biasHolds left)

/-- The cause byte of the C-die's events that unbias tiles: 1 in a pair, whose tiles hold (R338; log 107). -/
def State.holdCause (s : State) : Nat := if s.pair.mode == .paired then 1 else 0

/-- The ledger takes note of a shutdown (R387): at once on the F-die, whose ledger it is, when its own sensor decides. -/
def State.shutdownLog (s : State) (i : Nat) : State :=
  s.thermalLog 0x0902 i s.thm.shutValue fun l => { l with shutdowns := satAdd 0xFFFF l.shutdowns 1 }

/-- The C-die's part: the event and the counts of step 1, and step 3 of R365. The Vexnex link goes down as the device has left its pair
(Table 12.7). -/
def State.shutdownC (s : State) (i : Nat) : State :=
  let v := s.thm.shutValue
  let s := (s.bump .thmShutCnt).devEvent 0x0902 (leBytes 1 i ++ leBytes 1 (if i < 6 then 0 else 1) ++ leBytes 2 v)
  let s := if i < 6 then s else s.shutdownLog i
  let s := ((s.auxDiscard 2 fun _ => true).replayShutdown.faultStreams 4).leavePair 1
  { s with links := { s.links with vxState := .down } }

/-- Thermal shutdown (R365): the die of the deciding sensor acts at once, the other at the first copy of the class-0 event
(R50). -/
def State.thermalShutdown (s : State) (i v : Nat) : State :=
  let s := s.modThm fun k => { k with shutdown := true, resume := false, shutValue := v }
  if i < 6 then ((s.raise0 .fc 4 i 0).shutdownLog i).shutdownF false else (s.raise0 .cf 1 i s.holdCause).shutdownC i

/-! Coast and power-fail warning: the parts of the two dies (R356, R369). -/

/-- The F-die's part of a coast: cycles abort, tiles shut down or are held in a pair. -/
def State.coastF (s : State) (left : Bool) : State := (s.flyAbortAll 12 s.time).shutdownTiles (s.biasHolds left)

/-- The C-die's part: the streams stop, and the device leaves a pair (R338). -/
def State.coastC (s : State) : State := (s.faultStreams 3).leavePair 3

/-- A command waits for its write to enter the NV commit buffer. NV_COMMIT is no write, and the second part of a transfer or of a
download goes on with one that has begun. -/
def waitsToWrite (c : Cmd) : Bool :=
  match c.wait with
  | .nvQueued _ => c.opcode != 0x6003
  | .commitNv none _ | .calNv none | .transfer 1 none | .download 1 _ none => true
  | _ => false

/-- Commands that wait to enter the NV buffer complete BUSY and leave no effect (R276, R369, R383): an END among them leaves no commit
under way and the bundle verified only if it was before (R190), a download no next offset (R317). -/
def State.endNvWaiters (s : State) : State :=
  let gone (p : Wait → Bool) : Bool := (s.findCmd fun _ c => p c.wait).isSome
  let queuedEnd := gone fun w => w == .calNv none
  let queuedData := gone fun w => w matches .download 1 _ none
  let s : State :=
    { s with nv := { s.nv with waiting := s.nv.waiting.filter fun g => !((s.nvOwner g).map fun e => waitsToWrite e.2).getD false } }
  let s : State := if queuedEnd && s.act == .committing then
      { s with act := .none, session := s.session.map fun k => { k with verified := k.wasVerified } }
    else s
  let s : State := if queuedData then { s with sec := { s.sec with dl := none } } else s
  (s.completeWhere fun _ c => if waitsToWrite c then some (.busy, 0) else none).nvSettle

/-- The C-die takes note of PFW_N: the event, and commands that wait to enter the NV buffer complete BUSY. -/
def State.pfwC (s : State) : State :=
  if !s.clk.pfw then s
  else
    let s : State := { s with clk := { s.clk with pfwSeenC := true } }
    let s := s.endNvWaiters
    s.devEvent 0x0920 []

/-- A reading of the governing temperature against the levels (R363). -/
def State.thermalLevels (s : State) : State :=
  let v := s.thm.gov
  let i := s.thm.govSensor
  let note (s : State) (on : Bool) : State :=
    (s.modThm fun k => { k with warn := on }).devEvent 0x0900
      (leBytes 1 i ++ [0] ++ leBytes 2 v ++ leBytes 1 (if on then 1 else 0))
  let warn := s.par .thmWarn
  let s := if !s.thm.warn && warn ≤ v then
      (note s true).thermalLog 0x0900 i v fun l => { l with warnings := satAdd 0xFFFF l.warnings 1 }
    else if s.thm.warn && v + 80 ≤ warn then note s false
    else s
  let thr := s.par .thmThrottle
  let s := if !s.thm.throttle && thr ≤ v then s.modThm fun k => { k with throttle := true }
    else if s.thm.throttle && v + 80 ≤ thr then s.modThm fun k => { k with throttle := false, stage2Due := false }
    else s
  if !s.thm.shutdown && s.par .thmShut ≤ v then s.thermalShutdown i v else s

/-- The largest value of a list of sensors. -/
def hottest (vals : List (Nat × Nat)) : Option (Nat × Nat) :=
  vals.foldl (fun b e => match b with
    | some o => if o.2 < e.2 then some e else b
    | none => some e) none

/-- A reading: the governing temperature of sensors with values (R362). With no usable sensor nothing is governed. -/
def State.thermalReading (s : State) (vals : List (Nat × Nat)) : State :=
  match hottest vals with
  | none => s
  | some (i, v) => (s.modThm fun k => { k with gov := v, govSensor := i, peak := max k.peak v }).thermalLevels

/-- The F-die governs its own sensors while the guyline is down (R362): it keeps their largest value for itself, and of the
levels only shutdown is in its hands; the latches of the device are the C-die's. -/
def State.readingF (s : State) (vals : List (Nat × Nat)) : State :=
  match hottest vals with
  | none => s
  | some (i, v) =>
    let s := s.modThm fun k => { k with govF := v, govSensorF := i, peak := max k.peak v }
    if !s.thm.shutdown && s.par .thmShut ≤ v then s.thermalShutdown i v else s

/-- The end of a regular round (R360, R362). -/
def State.roundEnd (s : State) : State :=
  let usable := (List.range 14).filter s.sensorUsable
  let s := (List.range 14).foldl (fun s i => s.checkSensor usable i) s
  let vals (l : List Nat) : List (Nat × Nat) := (l.filter s.sensorUsable).map fun i => (i, s.hkValue i)
  if s.links.gln = .down then s.readingF (vals (List.range 6)) else s.thermalReading (vals (List.range 14))

/-! Housekeeping entries. -/

/-- The motor-current test of R152 on a result of HK22 + t. -/
def State.currentTest (s : State) (ch : Nat) : State :=
  if h : 22 ≤ ch ∧ ch < 30 then
    let t : Tile := ⟨ch - 22, by omega⟩
    let isns := s.par .flyIsns t
    let lim := isns / 65536
    if (s.dr t).drive ≠ .off && lim ≠ 0 && lim * 4096000 < s.hkValue ch * 1200 * (isns % 65536) then
      (s.driveOff t).flyFault t 4 s.time
    else s
  else s

/-- HK_ENTRY_DONE (R104 to R110): the running entry ends, of the injected sequence if one runs. -/
def State.entryDone (s : State) (volts : List Nat) : State :=
  match s.hk.inj with
  | some j =>
    match j.entries with
    | [] => s.modHk fun h => { h with inj := none }
    | e :: r =>
      let s := (s.hkEntry e j.tile true volts).currentTest (entryChannel e j.tile)
      let s := s.modHk fun h => { h with inj := if r.isEmpty then none else some { j with entries := r } }
      s.startWaiting
  | none =>
    match s.hk.round with
    | [] => s
    | e :: r =>
      let s := (s.hkEntry e none false volts).currentTest (entryChannel e none)
      let s := s.modHk fun h => { h with round := r }
      if r.isEmpty then s.roundEnd.startWaiting else s

def execHkEntryDone (t : Time) (volts : List Nat) (s : State) : Host.Outcome State Fault Refusal :=
  let s := s.advance t
  if s.hk.on then .next (s.entryDone volts) else .next s

/-- C_DIE_SENSOR_MEASURE (R103, R362): the C-die's eight values go to the F-die in class 1, after the retrain if one lasts (R46);
while the guyline is down the C-die governs its own. -/
def execCDieSensorMeasure (t : Time) (vals : List Nat) (s : State) : Host.Outcome State Fault Refusal :=
  let s := s.advance t
  if !s.hk.on then .next s
  else if s.links.gln = .down then
    .next (s.thermalReading (((List.range 8).filter fun i => !s.sensorBroken (6 + i) && i < vals.length).map fun i =>
      (6 + i, min 4095 (vals.getD i 0))))
  else .next (s.sendAcross .cf (.sensors ((vals.take 8).map (min 4095))))

/-! Stages at a tick, and the resume. -/

/-- THROTTLE_STAGE2_TIMER (R364): 2 s have passed since the tick of stage 1 without release. -/
def execThrottleStage2Timer (t : Time) (s : State) : Host.Outcome State Fault Refusal :=
  let s := s.advance t
  match s.thm.stage1At with
  | some a =>
    if s.thm.stage = 1 && s.thm.throttle && a + 2000000000 ≤ s.time then .next (s.modThm fun k => { k with stage2Due := true })
    else .next s
  | none => .next s

/-- The throttle at a tick with timestamp ts (R364). -/
def State.throttleTick (s : State) (ts : Time) : State :=
  if s.thm.throttle then
    if s.thm.stage = 0 then
      ((s.modThm fun k => { k with stage := 1, stage1At := some ts }).stageEvent 1).auxDiscard 2 fun _ => true
    else if s.thm.stage = 1 && s.thm.stage2Due then s.enterStage2
    else s
  else if s.thm.stage = 0 then s
  else
    let s := (s.modThm fun k => { k with stage := 0, stage1At := none, stage2Due := false }).setDivider.stageEvent 0
    { s with drift := s.drift.map fun d => { d with histEmpty := true } }

/-- Tiles and flysheets at the tick after a resume (R366): a flysheet that shows closed gets an open pulse, one in fault too
unless the fault is OVERCURRENT (Table 5.5). -/
def State.resumeTick (s : State) (ts : Time) : State :=
  if s.thm.resume then
    let s := s.modThm fun k => { k with resume := false }
    let s := allTiles.foldl (fun s t => if s.tileOn t && !(s.tile t).faulted then s.enableTile t else s) s
    allTiles.foldl (fun s t =>
      if s.flyEn t && s.showsClosed t && !((s.dr t).inFault && (s.dr t).cause = 4) then
        (s.modDrift t fun k => { k with openWait := k.stale == .untilOpen }).drive t .isOpen ts (s.flyPulse t)
      else s) s
  else s

/-- A write of 1 to THM_RESUME (R366). -/
def State.thmResume (s : State) (x : Ctx) : State × Status :=
  if !s.thm.shutdown then (s, .badParam)
  else if s.par .thmThrottle ≤ s.thm.gov then (s, .busy)
  else
    let s := s.modThm fun k => { k with shutdown := false, resume := true, throttle := true }
    let s : State := { s with links := { s.links with vxState := if s.par .pairBoard = 1 then .training else .down } }
    ((s.devEvent 0x0903 (leBytes 1 x ++ [0] ++ leBytes 2 s.thm.gov)).enterStage2, .done)

/-- THM_RESUME_WRITE (R366); a write of 0 is out of range. -/
def execThmResumeWrite (t : Time) (x : Ctx) (v : Bool) (s : State) : Host.Outcome State Fault Refusal :=
  let s := s.advance t
  if v then
    let r := s.thmResume x
    .next { r.1 with wstatus := r.2 }
  else .next { s with wstatus := .badParam }

end Sys2Proof.Machine
end

