-- ==== Sys2Proof/Machine/Coherence.lean ====
section
/-!
DEFINITION. The coherence groups of Table 9.18 and of chapters 10 to 13 (R20, R34, R36, R85, R96, R106, R128, R143, R178, R237 to
R239, R252, R290, R319, R320, R348, R359, R363, R391): their members, their conditions over the active state with staged
values applied, and the mask of failing checks (R289).
-/
namespace Sys2Proof.Machine

/-- The coherence groups; those of bit 15 are told apart. -/
inductive Group where
  | timing | placement | geometry | merge | converter | hk | spectral | flysheet | scene | filter | viewport | output | aux
  | binding | clockSources | thermalLimits | firmwarePolicy | memoryFit | pegSetup | pairIdentity | pairForwarding
deriving DecidableEq, Repr

/-- The bit of a group in the INCOHERENT mask (Table 9.18). -/
def Group.bit : Group → Nat
  | .timing => 0
  | .placement => 1
  | .geometry => 2
  | .merge => 3
  | .converter => 4
  | .hk => 5
  | .spectral => 6
  | .flysheet => 7
  | .scene => 8
  | .filter => 9
  | .viewport => 10
  | .output => 11
  | .aux => 12
  | .binding => 14
  | _ => 15

/-- The group that a parameter belongs to. -/
def Param.group : Param → Option Group
  | .tickSrc | .tickPeriod | .fsyncPol | .fsyncMinPeriod | .fsyncNomPeriod | .fsyncLossPolicy => some .timing
  | .tileEn | .tileX | .tileY | .tileFlip => some .placement
  | .tileKind | .actCols | .actRows | .refRows | .tapMode | .hdrEn | .winEn | .winStart | .winRows | .digRefCols | .digFmt
  | .digLag => some .geometry
  | .intLStart | .intLLen | .intSLen | .mergeKnee | .mergeRatioOvr => some .merge
  | .ilvEn | .adcSphase => some .converter
  | .hkRegEnt | .hkInjEnt | .hkRegLen | .hkRound | .hkInjLen | .hkInjTrig => some .hk
  | .specEn | .specPhase => some .spectral
  | .flyCfg | .flyDts | .flyTmax | .flyConfCfg | .flyRateLim | .flyIsns | .sboCfg | .sboTh | .flyMaxConc => some .flysheet
  | .radQty | .radEpsMode | .radTblSel | .radMapSel => some .scene
  | .filtTfK | .filtTfTh => some .filter
  | .outVpSrcPos | .outVpSrcSize | .outVpOutSize | .outPortCfg => some .viewport
  | .outMvFmt | .outCropPos | .outCropSize | .outCropFmt => some .output
  | .auxCamCfg | .auxCamSize | .auxBlack | .auxCcm | .auxHomog | .auxFuseCfg => some .aux
  | .hostCtxBind | .hostTagBase | .hostTagCount => some .binding
  | .clkASrc | .clkRcTrimSrc => some .clockSources
  | .thmWarn | .thmThrottle | .thmShut => some .thermalLimits
  | .secFwConfirmBoots | .secFwConfirmTime | .secFwCosign => some .firmwarePolicy
  | .pegCfg => some .pegSetup
  | .pairBoard | .pairPeerId | .pairRolePref => some .pairIdentity
  | .pairFwd => some .pairForwarding
  | _ => none

/-- A condition: whether it reads member i of a parameter, and the parameter ID that it fails on, if it fails. -/
structure Cond where
  reads : Param → Nat → Bool
  bad : Option Nat

/-- A condition over the parameters of a list, whatever their index. -/
def condOf (ps : List Param) (bad : Option Nat) : Cond := { reads := fun p _ => ps.contains p, bad }

/-- The first index of a list with a property, as a failing member of a parameter. -/
def firstBad (p : Param) (n : Nat) (bad : Nat → Bool) : Option Nat := ((List.range n).find? bad).map p.id

/-! The conditions. v is the active state with the staged values applied. -/

def timingConds (v : State) : List Cond :=
  [condOf [.fsyncNomPeriod, .fsyncMinPeriod]
    (if v.par .fsyncNomPeriod < v.par .fsyncMinPeriod then some (Param.id .fsyncNomPeriod 0) else none)]

/-- The parameters that place the enabled tiles (R20): the placement of all tiles, the geometry of enabled ones. -/
def State.placementReads (v : State) (p : Param) (i : Nat) : Bool :=
  [Param.tileEn, .tileX, .tileY].contains p
    || (v.par .tileEn i == 1 && [Param.tileKind, .actCols, .actRows, .winEn, .winRows].contains p)

/-- The active rectangles of two tiles share a pixel. -/
def State.sharePixel (v : State) (a b : Nat) : Bool :=
  overlaps (v.par .tileX a) (v.par .actCols a) (v.par .tileX b) (v.par .actCols b)
    && overlaps (v.par .tileY a) (v.mosaicRows a) (v.par .tileY b) (v.mosaicRows b)

def placementConds (v : State) : List Cond :=
  let on (t : Nat) : Bool := v.par .tileEn t == 1
  let tiles := (List.range 8).filter on
  let origin (p : Param) : Option Nat :=
    match tiles with
    | [] => none
    | t :: _ => if tiles.any fun u => v.par p u == 0 then none else some (p.id t)
  [ condOf [.tileX] (firstBad .tileX 8 fun t => v.par .tileX t % 8 != 0),
    condOf [.tileEn] (if tiles.isEmpty then some (Param.id .tileEn 0) else none),
    { reads := v.placementReads
      bad := firstBad .tileX 8 fun t => on t &&
        (20480 < v.par .tileX t + v.par .actCols t || 12288 < v.par .tileY t + v.mosaicRows t) },
    { reads := v.placementReads, bad := firstBad .tileX 8 fun t => on t && tiles.any fun u => u < t && v.sharePixel t u },
    condOf [.tileEn, .tileX] (origin .tileX),
    condOf [.tileEn, .tileY] (origin .tileY) ]

/-- R53, R56, R66, R76 and R79 for every tile (R85). The condition of R56 on the interleave of pairs holds for analog tiles only: a digital
tile has no taps (log 150). -/
def geometryConds (v : State) : List Cond :=
  let ana (t : Nat) : Bool := !v.isDigital t
  [ condOf [.actCols, .tileKind]
      (firstBad .actCols 8 fun t => v.par .actCols t % 8 != 0 || (ana t && v.par .actCols t < 256)),
    condOf [.actRows, .tileKind] (firstBad .actRows 8 fun t => ana t && v.par .actRows t < 64),
    condOf [.tapMode, .hdrEn, .tileKind, .ilvEn]
      (firstBad .tapMode 8 fun t =>
        ana t && v.par .tapMode t == 1 && v.hdr t && v.parField .ilvEn 0 (4 * t + 3) (4 * t) != 15),
    condOf [.winEn, .tileKind] (firstBad .winEn 8 fun t => v.windowed t && v.isDigital t),
    condOf [.winStart, .winRows, .actRows, .winEn]
      (firstBad .winStart 8 fun t => v.windowed t && v.par .actRows t < v.par .winStart t + v.par .winRows t),
    condOf [.actCols, .digRefCols, .hdrEn, .digFmt, .tileKind]
      (firstBad .actCols 8 fun t => v.isDigital t && 3200 < v.lineWords t),
    condOf [.digFmt, .hdrEn, .tileKind] (firstBad .digFmt 8 fun t => v.isDigital t && v.parBit .digFmt t 6 && v.hdr t) ]

/-- R64 for every tile, R128 for the enabled HDR tiles. -/
def mergeConds (v : State) : List Cond :=
  let hdrOn (t : Nat) : Bool := v.par .tileEn t == 1 && v.hdr t
  [ condOf [.intLStart, .intLLen, .intSLen, .hdrEn] (firstBad .intLStart 8 fun t => 960 < v.par .intLStart t + v.par .intLLen t),
    condOf [.intLStart, .intLLen, .intSLen, .hdrEn]
      (firstBad .intLLen 8 fun t => v.hdr t && 16 * v.par .intSLen t ≤ v.par .intLLen t),
    condOf [.mergeKnee, .hdrEn, .tileKind, .digFmt, .tileEn]
      (firstBad .mergeKnee 8 fun t => hdrOn t && !within 256 (2 ^ v.sampleBits t - 257) (v.par .mergeKnee t)),
    condOf [.mergeRatioOvr, .hdrEn, .tileKind, .digFmt, .tileEn]
      (firstBad .mergeRatioOvr 8 fun t => hdrOn t && v.par .mergeRatioOvr t != 0 && v.par .mergeRatioOvr t < 0x1000) ]

/-- The TCLK rate of an analog tile in Hz (Table 2.2). -/
def State.tclk (v : State) (t : Nat) : Nat := 32400000 * (1 + v.par .tapMode t) * if v.hdr t then 2 else 1

/-- R96. -/
def converterConds (v : State) : List Cond :=
  [ condOf [.ilvEn, .tileKind, .tapMode]
      (if (List.range 8).any fun t => v.parField .ilvEn 0 (4 * t + 3) (4 * t) != 0 && (v.isDigital t || v.par .tapMode t != 1) then
        some (Param.id .ilvEn 0) else none),
    condOf [.adcSphase, .tileEn, .tileKind, .tapMode, .hdrEn]
      (firstBad .adcSphase 8 fun t => v.par .tileEn t == 1 && !v.isDigital t
        && 1000000000000 < (v.par .adcSphase t * 100 + 1000) * v.tclk t) ]

/-- The time of a housekeeping entry (R103, R104), ns. -/
def hkEntryNs (e : Nat) : Nat :=
  if within 6 13 (bitsOf e 5 0) then 100 else bitsOf e 16 9 * 100 + 2 ^ bitsOf e 8 6 * 25

/-- R106: the sequence names channels 0 to 31, HK00 to HK13 among them, and fits half the round period. -/
def hkConds (v : State) : List Cond :=
  let ents := (List.range (v.par .hkRegLen)).map fun i => v.par .hkRegEnt i
  let reads := [Param.hkRegEnt, .hkRegLen, .hkRound]
  [ condOf reads (firstBad .hkRegEnt ents.length fun i => 31 < bitsOf (ents.getD i 0) 5 0),
    condOf reads (if (List.range 14).all fun c => ents.any fun e => bitsOf e 5 0 == c then none
      else some (Param.id .hkRegLen 0)),
    condOf reads (if v.par .hkRound * 50000 < (ents.map hkEntryNs).sum then some (Param.id .hkRound 0) else none) ]

/-- R178. -/
def flysheetConds (v : State) : List Cond :=
  [condOf [.flyConfCfg] (firstBad .flyConfCfg 8 fun t => v.parField .flyConfCfg t 3 0 < v.parField .flyConfCfg t 7 4)]

/-- RFLAGS[0] of the RAD section that the device holds for a tile (R205); without one the ratio is not defined. -/
def State.ratioDefined (v : State) (t : Nat) : Bool :=
  match v.bundle with
  | some b => bitOf (leAt (tileSection b.rad t) 0 4) 0
  | none => false

/-- Table 7.2. -/
def State.qtyAllowed (v : State) (t : Nat) : Bool :=
  let q := v.par .radQty t
  if v.spectral t then q ≤ 4 && (q != 2 || (v.stageOn t 10 && v.ratioDefined t)) else q == 0 || q == 3

/-- Entry i of the selected slot as it stands in memory (R237). -/
def State.slotEntry (v : State) (i : Nat) : Bytes := v.readMem (sceneAddr (v.par .radTblSel) + 16 * i) 16

/-- Scene entry i lies outside the ranges of Table 7.3; entries 0 to 62 with W = 0 are not checked (R237). -/
def State.badEntry (v : State) (i : Nat) : Bool :=
  let e := v.slotEntry i
  (i == 63 || leAt e 4 2 != 0)
    && (!within 0x148 0x8000 (leAt e 8 2) || !within 0x148 0x8000 (leAt e 10 2) || leAt e 12 2 == 0 || leAt e 14 2 == 0)

/-- R237. -/
def sceneConds (v : State) : List Cond :=
  [ condOf [.radQty, .specEn, .pipeStageEn] (firstBad .radQty 8 fun t => !v.qtyAllowed t),
    condOf [.radTblSel] (if (List.range 64).any v.badEntry then some (Param.id .radTblSel 0) else none),
    { reads := fun p i => p == .radEpsMode || v.placementReads p i
      bad := if v.par .radEpsMode == 1 && 32 * mib < roundUp 64 v.mosaicWidth * v.mosaicHeight then
          some (Param.id .radEpsMode 0) else none } ]

/-- R238. -/
def filterConds (v : State) : List Cond :=
  [ condOf [.filtTfK] (firstBad .filtTfK 8 fun t => !within 1 256 (v.par .filtTfK t)),
    condOf [.filtTfTh] (firstBad .filtTfTh 8 fun t => v.parField .filtTfTh t 31 16 ≤ v.parField .filtTfTh t 15 0) ]

/-- A source rectangle of a viewport under a configuration (R222). -/
def State.viewRect (v : State) (k : Nat) : Nat × Nat × Nat × Nat :=
  if v.par .outVpSrcSize k = 0 then (0, 0, v.mosaicWidth, v.mosaicHeight)
  else (v.parField .outVpSrcPos k 14 0, v.parField .outVpSrcPos k 29 16, v.parField .outVpSrcSize k 14 0,
    v.parField .outVpSrcSize k 29 16)

/-- The first three conditions of R239 for viewport k. even: OUT1 carries it. -/
def State.badView (v : State) (k : Nat) (even : Bool) : Bool :=
  let (x0, y0, sw, sh) := v.viewRect k
  let ow := v.outW k
  let oh := v.outH k
  sw == 0 || sh == 0 || v.mosaicWidth < x0 + sw || v.mosaicHeight < y0 + sh
    || !within 64 3840 ow || ow % 2 != 0 || !within 64 2160 oh || (even && oh % 2 != 0)
    || 8 * ow < sw || 4 * sw < ow || 8 * oh < sh || 4 * sh < oh

/-- Twice the bytes per pixel of a port's format (R229). -/
def State.portBytes2 (v : State) (p : Nat) : Nat := if p = 1 then 3 else if v.portFormat 0 = 1 then 6 else 4

/-- The image of a port does not fit the period (R229). -/
def State.portTooFast (v : State) (p : Nat) : Bool :=
  let k := v.portView p
  760 * v.parField .outPortCfg p 18 9 * v.pBudget
    < 80000 * (v.outW k * v.outH k * v.portBytes2 p + 2 * (64 * v.outH k + 4096))

/-- R239: only viewports that a port with a format carries are checked. -/
def viewportConds (v : State) : List Cond :=
  let on (p : Nat) : Bool := v.portFormat p != 0
  let view (p : Param) : Bool := [Param.outVpSrcPos, .outVpSrcSize, .outVpOutSize, .outPortCfg].contains p
  let timing (p : Param) : Bool := [Param.tickSrc, .tickPeriod, .fsyncMinPeriod].contains p
  [ { reads := fun p i => view p || v.placementReads p i
      bad := firstBad .outVpOutSize 2 fun k =>
        ((on 0 && v.portView 0 == k) || (on 1 && v.portView 1 == k)) && v.badView k (on 1 && v.portView 1 == k) },
    { reads := fun p _ => p == .outPortCfg || p == .outVpOutSize || timing p
      bad := firstBad .outPortCfg 2 fun p => on p && v.portTooFast p },
    { reads := fun p _ => p == .outPortCfg || p == .hostCtxBind
      bad := firstBad .outPortCfg 2 fun p => on p && v.bindingOf (v.portOwner p) == 0 } ]

/-- A crop's position and size: X, Y, W, H. -/
def State.cropRect (v : State) (c : Nat) : Nat × Nat × Nat × Nat :=
  (v.parField .outCropPos c 14 0, v.parField .outCropPos c 29 16, v.parField .outCropSize c 14 0, v.parField .outCropSize c 29 16)

def outputReads (v : State) (p : Param) (i : Nat) : Bool :=
  [Param.outCropPos, .outCropSize].contains p || v.placementReads p i

/-- An enabled crop lies inside the mosaic frame (R239). -/
def outputConds (v : State) : List Cond :=
  [{ reads := outputReads v
     bad := firstBad .outCropPos 16 fun c =>
       let (x, y, w, h) := v.cropRect c
       w != 0 && (v.mosaicWidth < x + w || v.mosaicHeight < y + h) }]

/-- A frame's machine-vision buffers in bytes, stride padding and statistics included (R218, R319). -/
def State.frameBytes (v : State) : Nat :=
  let full := match v.parField .outMvFmt 0 1 0 with
    | 1 => 2
    | 2 => 4
    | _ => 0
  let crop (c : Nat) : Nat :=
    let (_, _, w, h) := v.cropRect c
    if w = 0 then 0 else roundUp 64 (w * if v.parBit .outCropFmt 0 c then 4 else 2) * h
  roundUp 64 (v.mosaicWidth * full) * v.mosaicHeight
    + (if v.parBit .outMvFmt 0 4 then roundUp 64 v.mosaicWidth * v.mosaicHeight else 0)
    + ((List.range 16).map crop).sum + 133696

/-- R319. -/
def memoryFitConds (v : State) : List Cond :=
  [{ reads := fun p i => p == .outMvFmt || p == .outCropFmt || outputReads v p i
     bad := if 320 * mib < v.frameBytes then some (Param.id .outMvFmt 0) else none }]

/-- R252. -/
def auxConds (v : State) : List Cond :=
  let ranges (p : Param) : Option Nat := firstBad p p.row.count fun i => !p.inRange false i (v.par p i)
  [ condOf [.auxCamCfg] (ranges .auxCamCfg), condOf [.auxCamSize] (ranges .auxCamSize), condOf [.auxBlack] (ranges .auxBlack),
    condOf [.auxCcm] (ranges .auxCcm), condOf [.auxHomog] (ranges .auxHomog), condOf [.auxFuseCfg] (ranges .auxFuseCfg),
    condOf [.auxCamCfg] (firstBad .auxCamCfg 4 fun c => v.parBit .auxCamCfg c 7 && v.parField .auxCamCfg c 6 5 != 0),
    condOf [.auxFuseCfg, .auxCamCfg] (firstBad .auxFuseCfg 2 fun k =>
      v.parField .auxFuseCfg k 1 0 != 0 && !v.parBit .auxCamCfg (v.parField .auxFuseCfg k 3 2) 8) ]

/-- R290. flying: the tags in flight, each with its context. -/
def bindingConds (v : State) (flying : List (Ctx × Nat)) : List Cond :=
  let base (x : Nat) : Nat := v.par .hostTagBase x
  let count (x : Nat) : Nat := v.par .hostTagCount x
  let code (x : Nat) : Nat := v.parField .hostCtxBind x 3 0
  [ condOf [.hostCtxBind] (firstBad .hostCtxBind 8 fun x => within 1 11 (code x) && (List.range x).any fun y => code y == code x),
    condOf [.hostTagBase, .hostTagCount] (firstBad .hostTagBase 8 fun x =>
      (0 < count x && 2048 < base x + count x) || (List.range x).any fun y => overlaps (base x) (count x) (base y) (count y)),
    condOf [.hostCtxBind] (if (List.range 8).any fun x => code x == 1 && v.parField .hostCtxBind x 6 4 == 1 then none
      else some (Param.id .hostCtxBind 0)),
    condOf [.hostTagBase, .hostTagCount] (firstBad .hostTagBase 8 fun x =>
      flying.any fun e => e.1.val == x && !v.ownsTag e.1 e.2) ]

/-- R359. s is the active state. -/
def clockConds (s v : State) : List Cond :=
  let src := v.par .clkASrc
  [ condOf [.clkASrc] (if s.anyStream && src != s.par .clkASrc then some (Param.id .clkASrc 0) else none),
    condOf [.clkASrc] (if (src == 0 && s.clk.refsel != 0) || (src == 1 && s.clk.refsel != 1) then some (Param.id .clkASrc 0)
      else none),
    condOf [.clkRcTrimSrc, .tickSrc] (if v.par .clkRcTrimSrc == 1 && v.par .tickSrc == 0 then some (Param.id .clkRcTrimSrc 0)
      else none) ]

/-- R363. -/
def thermalConds (v : State) : List Cond :=
  [ condOf [.thmWarn, .thmThrottle] (if v.par .thmThrottle < v.par .thmWarn + 80 then some (Param.id .thmWarn 0) else none),
    condOf [.thmThrottle, .thmShut] (if v.par .thmShut < v.par .thmThrottle + 80 then some (Param.id .thmThrottle 0) else none) ]

/-- R320. -/
def firmwareConds (v : State) : List Cond :=
  [Param.secFwConfirmBoots, .secFwConfirmTime, .secFwCosign].map fun p =>
    condOf [p] (if p.inRange false 0 (v.par p) then none else some (p.id 0))

/-- R391: no context is bound to a port in master mode. -/
def pegConds (v : State) : List Cond :=
  [condOf [.pegCfg, .hostCtxBind] (firstBad .pegCfg 2 fun n =>
    !v.parBit .pegCfg n 0 && (List.range 8).any fun x => v.parField .hostCtxBind x 3 0 == 9 + n)]

/-- R348. -/
def pairIdentityConds (s : State) : List Cond :=
  [condOf [.pairBoard, .pairPeerId, .pairRolePref]
    (if s.pair.mode == .single || s.pair.mode == .detached then none else some (Param.id .pairBoard 0))]
def pairForwardingConds (v : State) : List Cond :=
  [condOf [.pairFwd, .hostCtxBind]
    (firstBad .pairFwd 8 fun x => v.parBit .pairFwd x 0
      && (v.parField .hostCtxBind x 3 0 == 0 || v.parField .hostCtxBind x 3 0 == 11))]

/-! The evaluation (R289). -/

/-- Tags in flight with their contexts. -/
def State.flying (s : State) : List (Ctx × Nat) :=
  allCtx.flatMap fun x => (s.ctx x).inflight.map fun c => (x, c.tag % 2048)

/-- The conditions of a group over the state v that a commit would make of s. -/
def Group.conds (s v : State) : Group → List Cond
  | .timing => timingConds v
  | .placement => placementConds v
  | .geometry => geometryConds v
  | .merge => mergeConds v
  | .converter => converterConds v
  | .hk => hkConds v
  | .spectral => []
  | .flysheet => flysheetConds v
  | .scene => sceneConds v
  | .filter => filterConds v
  | .viewport => viewportConds v
  | .output => outputConds v
  | .aux => auxConds v
  | .binding => bindingConds v s.flying
  | .clockSources => clockConds s v
  | .thermalLimits => thermalConds v
  | .firmwarePolicy => firmwareConds v
  | .memoryFit => memoryFitConds v
  | .pegSetup => pegConds v
  | .pairIdentity => pairIdentityConds s
  | .pairForwarding => pairForwardingConds v

/-- The groups together with which a group is checked by its own rule. -/
def Group.along : Group → List Group
  | .converter => [.geometry]
  | .spectral => [.geometry]
  | .scene => [.geometry, .spectral, .placement]
  | .viewport => [.placement, .timing]
  | .memoryFit => [.output, .placement, .geometry]
  | .pegSetup => [.binding]
  | _ => []

/-- The groups in the order of their bits. -/
def allGroups : List Group :=
  [.timing, .placement, .geometry, .merge, .converter, .hk, .spectral, .flysheet, .scene, .filter, .viewport, .output, .aux,
    .binding, .clockSources, .thermalLimits, .firmwarePolicy, .memoryFit, .pegSetup, .pairIdentity, .pairForwarding]

/-- A group's check runs: a member is staged, or a parameter that a condition reads, or one of the groups that it is
checked together with. -/
def Group.runs (g : Group) (conds : List Cond) (st : List (Param × Nat)) : Bool :=
  st.any fun e => e.1.group == some g || (match e.1.group with | some h => g.along.contains h | none => false)
    || (g == .scene && e.1 == .pipeStageEn) || conds.any fun c => c.reads e.1 e.2

/-- What the checks find: the mask and the first failing parameter ID in the order of the groups (log 15). -/
structure Verdict where
  mask : Nat
  first : Option Nat
deriving DecidableEq, Repr

/-- A failing condition of a group sets the group's bit, and the bit of every group with a staged member among the
parameters that it reads. -/
def Verdict.fail (r : Verdict) (bit : Nat) (reads : Param → Nat → Bool) (st : List (Param × Nat)) (id : Nat) : Verdict :=
  let more := st.filterMap fun e => if reads e.1 e.2 then e.1.group.map Group.bit else none
  { mask := more.foldl (fun m b => m ||| 2 ^ b) (r.mask ||| 2 ^ bit), first := some (r.first.getD id) }

def Group.check (s v : State) (st : List (Param × Nat)) (r : Verdict) (g : Group) : Verdict :=
  let conds := g.conds s v
  if g.runs conds st then
    conds.foldl (fun r c => match c.bad with
      | some id => r.fail g.bit c.reads st id
      | none => r) r
  else r

/-- The parameters whose change calls for the budget check (R36, R116, R216). -/
def budgetParam (p : Param) : Bool :=
  [some Group.timing, some .placement, some .geometry].contains p.group
    || [Param.pipeStageEn, .specEn, .specPhase, .filtEn].contains p

/-- The budget of a configuration holds: R36 for D = 1, L_p of at most 96 rows (R116), and in a pair R332. -/
def State.budgetHolds (v : State) : Bool :=
  0 ≤ v.budgetMargin && v.latency ≤ 96
    && (v.pair.mode != .paired
      || (v.frameRows + v.latency + 86) * 10000 + v.latency * 3300 + tClose ≤ v.basePeriod)

/-- The budget check runs where a staged value differs from the active one. -/
def State.budgetCalled (s v : State) (st : List (Param × Nat)) : Bool :=
  st.any fun e => budgetParam e.1 && v.par e.1 e.2 != s.par e.1 e.2

/-- The first staged parameter that enters the budget check. -/
def budgetFirst (st : List (Param × Nat)) : Nat := ((st.find? fun e => budgetParam e.1).map fun e => e.1.id e.2).getD 0

/-- The verdict over a staged set (R289): each group's bit by its conditions, and bit 13 alone where the budget check of R36 fails
(DEDUCED, log 140). -/
def State.coherence (s : State) (staged : List (Nat × Word)) : Verdict :=
  let st := stagedParams staged
  let v := s.withStaged staged
  let r := allGroups.foldl (fun r g => g.check s v st r) { mask := 0, first := none }
  if s.budgetCalled v st && !v.budgetHolds then
    { mask := r.mask ||| 2 ^ 13, first := some (r.first.getD (budgetFirst st)) }
  else r

end Sys2Proof.Machine
end

