-- ==== Sys2Proof/Machine/CalImport.lean ====
section
/-!
DEFINITION. Calibration import and activation (R179 to R199): the header and directory checks, the chunks, the end of an
import, the activation with its hold frames, CAL_STATUS, and blocks of external memory that fail their tag (R197, R304).
-/
namespace Sys2Proof.Machine

/-! The header (Table 6.1, R184, R185, R188). -/

def calKey : Bytes := Config.hkdf384 Config.rootSecret [] (ascii "KL9630 CAL") 48
def calPublic : Bytes := Config.p384Public calKey

/-- CAL_AREA_SIZE in bytes (R195). -/
def calAreaBytes : Nat := 3072 * mib

/-- Reserved bits and bytes of a header are zero. Table 6.1 names KIND[2:0] only; the model takes KIND[7:3] as reserved too (log 141). -/
def hdrReservedOk (h : Bytes) : Bool :=
  let zero (o n : Nat) : Bool := (sliceB o n h).all (· == 0)
  leAt h 31 1 < 2 && zero 153 7 && zero 172 4 && zero 320 96 && zero (224 + 2 * hdrSets h) (24 - 2 * hdrSets h)
    && (List.range 8).all fun t => zero (261 + 8 * t) 3 && hdrKind h t < 8

/-- TREF_CH of every tile names a die sensor, a calibrated tile's sensor, or the board input. -/
def hdrTrefOk (h : Bytes) : Bool :=
  (List.range 8).all fun t =>
    let c := hdrTref h t
    c ≤ 13 || c == 31 || (within 14 21 c && bitOf (hdrTiles h) (c - 14))

/-- Check 3 of R188. -/
def hdrShapeOk (h : Bytes) : Bool :=
  h.length == 512 && sliceB 0 4 h == ascii "KCB1" && leAt h 4 2 == 1 && leAt h 6 2 == 512 && hdrReservedOk h
    && within 1 12 (hdrSets h) && hdrTiles h != 0 && hdrLen h % 512 == 0 && within 512 calAreaBytes (hdrLen h)
    && hdrChunks h == (hdrLen h + 1048575) / 1048576 && Config.p384Valid (hdrEph h)
    && ((List.range (hdrSets h - 1)).all fun i => decide (hdrSetTemp h i < hdrSetTemp h (i + 1))) && hdrTrefOk h

/-- Check 4 of R188, with the identifier that the header must name. -/
def State.hdrSigned (s : State) (dev h : Bytes) : Bool :=
  let slot := s.sec.otp.slots.getD (hdrSlot h) (0, [])
  hdrSlot h ≤ 3 && slot.1 == 1 && sliceB 32 16 h == dev && Config.ecdsaVerify slot.2 (sha (h.take 416)) (sliceB 416 96 h)

/-- CAL_VER_FLOOR, from the identity page of the NV store. -/
def State.calFloor (s : State) : Nat := leAt (s.nvLook 8).data 36 4

/-- Checks 3 to 5 of R188. -/
def State.hdrRefusal (s : State) (dev h : Bytes) : Option Status :=
  if !hdrShapeOk h then some .badParam
  else if !s.hdrSigned dev h then some .authFail
  else if hdrVersion h < s.calFloor then some .rollbackRefused
  else none

/-! The directory (R182, R183). -/

/-- The free area (R195). While no bundle is active both are free, and area 0 receives the import (log 143). -/
def State.freeArea (s : State) : Nat := match s.bundle with
  | some b => if b.area = 0 then 1 else 0
  | none => 0

/-- The length that Table 6.3 gives a section type; none for a type outside it. -/
def sectionLen (h : Bytes) (typ tile : Nat) : Option Nat :=
  match typ with
  | 0x0001 => some 32768
  | 0x0002 => some 32
  | 0x0003 => some 34
  | 0x0004 => some 34
  | 0x0010 => some (cprPitch (hdrCols h tile) * hdrRows h tile * 8)
  | 0x0020 => some 16448
  | _ => none

/-- A directory entry is one that R182 allows. -/
def entryOk (h : Bytes) (e : Section) : Bool :=
  sectionLen h e.typ e.tile == some e.len
    && (if e.typ == 4 then e.tile == 255 && (List.range 8).any fun t => hdrTref h t == 31
        else e.tile < 8 && bitOf (hdrTiles h) e.tile)
    && (if e.typ == 16 then e.set < hdrSets h else e.set == 0)

/-- The sections that the header calls for. -/
def sectionsDue (h : Bytes) : Nat :=
  ((List.range 8).filter (bitOf (hdrTiles h))).length * (4 + hdrSets h)
    + if (List.range 8).any fun t => hdrTref h t == 31 then 1 else 0

/-- Entry i of a directory, before its place is known. -/
def dirEntry (b : Bytes) (i : Nat) : Section :=
  let o := 8 + 16 * i
  { typ := leAt b o 2, tile := leAt b (o + 2) 1, set := leAt b (o + 3) 1, off := 0, len := leAt b (o + 8) 8, addr := 0 }

/-- Sections laid out in directory order: payload offsets at 512 bytes, addresses at 4 KiB. -/
def placeSections : Nat → Nat → List Section → List Section
  | _, _, [] => []
  | off, addr, e :: r =>
    { e with off, addr } :: placeSections (off + roundUp 512 e.len) (addr + roundUp 4096 e.len) r

/-- The directory of a payload for an area address; none where it breaks R182, or has a reserved field or padding byte that is not zero
(log 142). -/
def directory (h b : Bytes) (base : Nat) : Option (List Section) :=
  let n := leAt b 0 4
  let head := roundUp 512 (8 + 16 * n)
  if n ≠ sectionsDue h || b.length < head then none
  else
    let es := (List.range n).map (dirEntry b)
    let distinct := ((es.map fun e => (e.typ, e.tile, e.set)).eraseDups).length == n
    let clean := leAt b 4 4 == 0 && (List.range n).all fun i => leAt b (12 + 16 * i) 4 == 0
    let total := head + (es.map fun e => roundUp 512 e.len).sum
    if es.all (entryOk h) && distinct && clean && total == hdrLen h && (sliceB (8 + 16 * n) (head - 8 - 16 * n) b).all (· == 0)
    then some (placeSections head base es) else none

/-! The RAD check (R202). -/

/-- A band's fields are usable. -/
def bandOk (b : Band) : Bool :=
  [b.k, b.l0, b.a, b.b, b.c].all binary32.isFinite && f32pos b.a && f32pos b.b && b.k % 2 ^ 31 != 0

def radOk (h : Bytes) (tile : Nat) (rad : Bytes) : Bool :=
  let spec := bitOf (hdrKind h tile) 1
  let flags := leAt rad 0 4
  let ratio := bitOf flags 0
  flags < 2 && bandOk (bandOf rad 0) && (!spec || bandOk (bandOf rad 1)) && (!ratio || spec)
    && (!ratio || (binary32.isFinite (leAt rad 44 4) && f32pos (leAt rad 48 4)
      && (List.range 4096).all fun i => f32pos (leAt rad (64 + 4 * i) 4)))
    && (sliceB 52 12 rad).all (· == 0)

/-! BEGIN, CHUNK and END. -/

/-- The device imports for its pair: the PARTNER refuses (R335). -/
def State.importsHere (s : State) : Bool := !(s.pair.mode == .paired && s.pair.role == 1)

/-- A LEAD passes a part of an import to its PARTNER (R335). -/
def State.sendBundle (s : State) (body : Bytes) : State :=
  if s.isLead then
    ({ s with pair := { s.pair with peerBundle := none, ownBundle := false } } : State).pairSend .bundle body
  else s

def newSession (owner : Ctx) (h : Bytes) (now : Time) : Session :=
  { owner, hdr := h, next := 0, plain := [], secs := none, touched := now, verified := false, wasVerified := false, txn := none }

/-- An import command has come: the session's time runs anew (R191). -/
def State.touchSession (s : State) : State := { s with session := s.session.map fun k => { k with touched := s.time } }

/-- CAL_IMPORT_BEGIN (R188). -/
def State.calBegin (s : State) (x : Ctx) (c : Cmd) : State :=
  let s := s.touchSession
  if !s.importsHere then s.complete x c .notPermitted
  else if s.session.isSome || s.act != .none then s.complete x c .busy
  else
    let s := if s.nvUp then s.nvFetchAll [8] else s
    let s := if hdrShapeOk c.payload then s.verified 1 else s
    match s.hdrRefusal devId c.payload with
    | some st => s.complete x c st
    | none =>
      let s := (s.clearMem (calAreaAddr s.freeArea) calAreaBytes).sendBundle (0 :: c.payload)
      ({ s with session := some (newSession x c.payload s.time) } : State).complete x c .done (hdrChunks c.payload)

def execCalImportBegin (t : Time) (x : Ctx) (tag : BitVec 11) (s : State) : Host.Outcome State Fault Refusal :=
  .next (s.command t x tag 0x3001 fun s c => s.calBegin x c)

/-- The plaintext length of a chunk (R181). -/
def chunkLen (h : Bytes) (i : Nat) : Nat := min 1048576 (hdrLen h - 1048576 * i)

/-- KEK (R180). -/
def calKek (h : Bytes) : Bytes := Config.hkdf384 (padTo 48 (Config.ecdh384 calKey (hdrEph h))) (hdrId h) (ascii "KL9630 CAL") 32

/-- The part of a section that lies in payload bytes from o on. -/
def State.placePart (s : State) (o : Nat) (b : Bytes) (e : Section) : State :=
  let lo := max o e.off
  let hi := min (o + b.length) (e.off + e.len)
  if lo < hi then s.writeMem (e.addr + (lo - e.off)) (sliceB (lo - o) (hi - lo) b) else s

/-- A session with one more chunk of plaintext; none where the directory or a RAD section fails. The directory is checked once
its last byte, or the last one of the payload, has arrived. -/
def Session.add (k : Session) (b : Bytes) (base : Nat) : Option Session :=
  let old := k.plain.length
  let plain := k.plain ++ b
  if k.secs.isNone && decide (plain.length < roundUp 512 (8 + 16 * leAt plain 0 4)) && decide (plain.length < hdrLen k.hdr) then
    some { k with plain, next := k.next + 1 }
  else match (match k.secs with | some l => some l | none => directory k.hdr plain base) with
  | none => none
  | some l =>
    let rads := l.filter fun e => e.typ == 32 && old < e.off + e.len && e.off + e.len ≤ plain.length
    if rads.all fun e => radOk k.hdr e.tile (sliceB e.off e.len plain) then
      some { k with plain, secs := some l, next := k.next + 1 }
    else none

/-- CAL_IMPORT_CHUNK (R189). -/
def State.calChunk (s : State) (x : Ctx) (c : Cmd) (host : Bytes) : State :=
  let s := s.touchSession
  match s.session with
  | none => s.complete x c .notPermitted
  | some k =>
    if !s.importsHere || k.owner != x then s.complete x c .notPermitted
    else if !c.payload.isEmpty then s.complete x c .badParam
    else
      let area := s.sgRead x c host
      let n := leAt area 4 4
      match s.areaStop x c true with
      | some st => s.complete x c st
      | none =>
      if area.length < 8 || hdrChunks k.hdr ≤ k.next || leAt area 0 4 ≠ k.next || n ≠ chunkLen k.hdr k.next + 16
          || area.length < 8 + n then s.complete x c .badParam
      else
        let nonce := sliceB 48 8 k.hdr ++ beBytes 4 k.next
        match Config.gcmOpen (calKek k.hdr) nonce (k.hdr.take 416) (sliceB 8 (n - 16) area) (sliceB (n - 8) 16 area) with
        | none => (s.bump .calChunkFailCnt).complete x c .authFail
        | some p =>
          let p := padTo (n - 16) p
          match k.add p (calAreaAddr s.freeArea) with
          | none => (s.complete x c .badParam).cancelSession 5
          | some k2 =>
            let s := (k2.secs.getD []).foldl (fun s e => s.placePart k.plain.length p e) s
            (({ s with session := some k2 } : State).sendBundle (1 :: p)).complete x c .done k2.next

def execCalImportChunk (t : Time) (x : Ctx) (tag : BitVec 11) (area : Bytes) (s : State) :
    Host.Outcome State Fault Refusal :=
  .next (s.command t x tag 0x3002 fun s c => s.calChunk x c area)

/-- The identity record of a verified bundle (R179, R190, R192). -/
def State.identityRecord (s : State) (h : Bytes) : Bytes :=
  sliceB 8 16 h ++ sliceB 24 4 h ++ sliceB 176 16 h ++ leBytes 4 (if hdrRaise h then hdrVersion h else s.calFloor)

/-- CAL_IMPORT_END (R190). In a pair the PARTNER is asked for its digest check and its own commit (R335). -/
def State.calEnd (s : State) (x : Ctx) (c : Cmd) : State :=
  let flags := leAt c.payload 0 4
  let s := s.touchSession
  match s.session with
  | none => s.complete x c .notPermitted
  | some k =>
    if !s.importsHere || k.owner != x then s.complete x c .notPermitted
    else if s.act != .none then s.complete x c .busy
    else if c.payload.length ≠ 4 || 1 < flags then s.complete x c .badParam
    else if flags = 1 then (s.complete x c .done).cancelSession 4
    else if k.next < hdrChunks k.hdr then s.complete x c .badParam
    else if sha k.plain != hdrDigest k.hdr then (s.complete x c .authFail).cancelSession 6
    else
      let s : State := { s with session := some { k with verified := true, wasVerified := k.verified } }
      if !s.nvUp then s.complete x c .failedFault
      else if s.nv.spares.length < 64 then s.complete x c .nvFull
      else
        let s := (s.nvFetchAll [8]).sendBundle [2]
        (({ s with act := .committing } : State).await x c (.calNv none)).nvSubmit
          { ups := [(8, 0, s.identityRecord k.hdr)], now := true, owner := some (x, c.tag % 2048) }

def execCalImportEnd (t : Time) (x : Ctx) (tag : BitVec 11) (s : State) : Host.Outcome State Fault Refusal :=
  .next (s.command t x tag 0x3003 fun s c => s.calEnd x c)

/-- CAL_IMPORT_TMO_EXPIRY (R191). -/
def execCalImportTmoExpiry (t : Time) (s : State) : Host.Outcome State Fault Refusal :=
  let s := s.advance t
  match s.session with
  | some k =>
    if s.act == .none && k.touched + s.par .calImportTmo * 1000000000 ≤ s.time then .next (s.cancelSession 1) else .next s
  | none => .next s

/-! Activation (R193). -/

/-- The sections of a type, read from the area. -/
def State.sectionsOf (s : State) (l : List Section) (typ : Nat) : List (Nat × Bytes) :=
  (l.filter fun e => e.typ == typ).map fun e => (e.tile, s.readMem e.addr e.len)

/-- The bundle that a verified session becomes. -/
def State.bundleOf (s : State) (k : Session) : Bundle :=
  let l := k.secs.getD []
  { hdr := k.hdr, area := s.freeArea, actFrame := s.tick.nextFrame, lin := s.sectionsOf l 1, nlc := s.sectionsOf l 2
    tsub := s.sectionsOf l 3, housing := ((s.sectionsOf l 4).map (·.2)).flatten, rad := s.sectionsOf l 32, secs := l
    cpr := (l.filter fun e => e.typ == 16).map fun e => (e.tile, e.set, e.addr) }

/-- Activation starts: running flysheet cycles abort and the copy begins; with a tick, its frames are held. A LEAD tells its
PARTNER, which activates at the same tick (R335). -/
def State.startActivation (s : State) (now : Time) (tick : Bool) : State :=
  let s := if s.isLead then s.pairSend .bundle [4] else s
  { (s.flyAbortAll 8 now) with act := if tick then .holding now false 0 else .copying }

/-- A PARTNER in a join answers the LEAD once its activation has ended (Table 11.5 step 4). -/
def State.joinAnswer (s : State) (st : Status) : State :=
  if s.pair.mode == .joining && s.pair.role = 1 then s.answerBundle st else s

/-- Item 5: the new bundle is in force, drift is reset, and END completes with the number of frames held. -/
def State.finishActivation (s : State) (held : Nat) : State :=
  match s.session with
  | none => { s with act := .none }
  | some k =>
    let s : State := { s with bundle := some (s.bundleOf k), session := none, act := .none }
    (s.driftReset.completeWhere fun _ c =>
      if c.wait == .activation then some (.done, hdrSets k.hdr + 256 * hdrTiles k.hdr + 65536 * held) else none).joinAnswer .done

/-- What an activation does at a tick with timestamp ts. -/
def State.activationTick (s : State) (ts : Time) : State :=
  match s.act with
  | .waiting _ => s.startActivation ts true
  | .holding a true n => if a + 4000000 ≤ ts then s.finishActivation n else s
  | _ => s

/-- The device's own ticks start frames; a PARTNER takes its ticks from the LEAD, from the join on, and keeps its own tick state
machine in step (R329, Table 11.5 step 3). -/
def State.ownTicks (s : State) : Bool := !(s.linked && s.pair.role == 1)

/-- A tick of the device's own may fall at this instant: of the internal generator or in free run only its own time counts; with
FSYNC the edge decides. -/
def State.tickInstant (s : State) : Bool :=
  s.ownTicks && s.tick.running && s.tick.next ≤ s.time && (match s.tick.state with
    | .internal => !(s.tick.d2 && s.tick.skip)
    | .freeRun => true
    | _ => false)

/-- ACTIVATION_START (R193): at the first tick after the NV commit, or after 100 ms without one. -/
def execActivationStart (t : Time) (s : State) : Host.Outcome State Fault Refusal :=
  let s := s.advance t
  match s.act with
  | .waiting a =>
    if a + 100000000 ≤ s.time then .next (s.startActivation s.time false)
    else if s.tickInstant then .next (s.endReading.startActivation s.time true)
    else .next s
  | _ => .next s

/-- ACTIVATION_COPY_DONE (R193): the copy ends, or a block has failed twice. Without a tick the new bundle is in force from here on,
so a frame that is still open ends first, under the bundle of its tick (R117). -/
def execActivationCopyDone (t : Time) (ok : Bool) (s : State) : Host.Outcome State Fault Refusal :=
  let s := s.advance t
  match s.act with
  | .holding a false n => .next (if ok then { s with act := .holding a true n } else s.abandonActivation.joinAnswer .failedFault)
  | .copying => .next (if ok then s.endReading.finishActivation 0 else s.abandonActivation.joinAnswer .failedFault)
  | _ => .next s

/-- ACTIVATION_HOLD_END (R193): the first tick 4.0 ms or more after tick A. -/
def execActivationHoldEnd (t : Time) (s : State) : Host.Outcome State Fault Refusal :=
  let s := s.advance t
  if s.tickInstant then .next (s.endReading.activationTick s.time) else .next s

/-! CAL_STATUS (Table 6.6). -/

/-- STATE of Table 6.6. Between the NV commit and tick A it reads 4, activating (log 144). -/
def State.calState (s : State) : Nat :=
  match s.act, s.session with
  | .waiting _, _ | .copying, _ | .holding _ _ _, _ => 4
  | _, some k => if k.verified then 3 else 2
  | _, none => if s.bundle.isSome then 1 else 0

/-- A field of the active bundle, 0 without one. -/
def State.active (s : State) (f : Bundle → Nat) : Nat := (s.bundle.map f).getD 0

def State.calRecord (s : State) (nv : Bytes) : Bytes :=
  leBytes 1 s.calState ++ leBytes 1 ((s.session.map fun k => k.owner.val).getD 0xFF) ++ leBytes 1 (s.active fun b => hdrSets b.hdr)
    ++ leBytes 1 (s.active fun b => hdrTiles b.hdr) ++ leBytes 1 s.calTiles ++ [0, 0, 0]
    ++ (match s.bundle with | some b => hdrId b.hdr | none => List.replicate 16 0)
    ++ leBytes 4 (s.active fun b => hdrVersion b.hdr) ++ leBytes 6 (s.active (·.actFrame)) ++ [0, 0]
    ++ leBytes 4 ((s.session.map (·.next)).getD 0) ++ leBytes 4 ((s.session.map fun k => hdrChunks k.hdr).getD 0)
    ++ leBytes 4 (leAt nv 36 4) ++ sliceB 0 8 nv ++ sliceB 16 4 nv ++ sliceB 20 4 nv

def State.calStatus (s : State) (x : Ctx) (c : Cmd) (sg : Nat) : State :=
  if !c.payload.isEmpty then s.complete x c .badParam
  else if !s.nvUp then s.complete x c .failedFault
  else
    let r := s.nvFetch 8
    r.2.writeRecord x c sg (r.2.calRecord r.1) 64

def execCalStatus (t : Time) (x : Ctx) (tag : BitVec 11) (sg : Nat) (s : State) : Host.Outcome State Fault Refusal :=
  .next (s.command t x tag 0x3004 fun s c => s.calStatus x c sg)

/-! Die faults (R52) and failed tags (R197, R304). -/

/-- The FRAME_FAILED cause and the LEAVING cause of a die fault index (Tables 1.10 and 11.9). -/
def dieCauses (idx : Nat) : Nat × Nat := if idx = 1 then (2, 2) else if idx = 3 then (6, 5) else (5, 4)

/-- A die fault stops every stream, and a paired device leaves its pair. -/
def State.dieFault (s : State) (idx : Nat) : State := (s.stopStreams (dieCauses idx).1).leavePair (dieCauses idx).2

/-- A CPR block of the frame being read fails its tag (R197). At most 16 events a frame are raised. -/
def State.cprFail (s : State) (b : Bundle) (addr : Nat) (ok : Bool) : State :=
  let size (e : Nat × Nat × Nat) : Nat := cprPitch (hdrCols b.hdr e.1) * hdrRows b.hdr e.1 * 8
  match b.cpr.find? fun e => e.2.2 ≤ addr && addr < e.2.2 + size e with
  | none => s
  | some e =>
    let i := (addr - e.2.2) / 512 * 64
    let pitch := cprPitch (hdrCols b.hdr e.1)
    let row := i / pitch
    let col := i % pitch
    let s := (s.bump .calTagFailCnt).perfEvent 6 0x12
    let s := if ok then s else s.bump .calRereadFailCnt
    let event (s : State) : State :=
      s.devEvent 0x0701 (leBytes 1 e.1 ++ leBytes 1 e.2.1 ++ leBytes 2 row ++ leBytes 2 col ++ leBytes 1 (if ok then 0 else 1))
    match s.reading with
    | none => event s
    | some f =>
      let n := (f.tiles.map fun k => k.badCpr.length).sum
      let s := s.modFrame f.num fun f =>
        { f with tiles := f.tiles.modify e.1 fun k => { k with badCpr := k.badCpr ++ [(row, col)] } }
      if n < 16 then event s else s

/-- The drift map block at an address: tile, row, first column. -/
def State.driftBlock (s : State) (addr : Nat) : Nat × Nat × Nat :=
  let o := addr - driftMapAddr
  let t := o / (16 * mib)
  let i := o % (16 * mib) / 512 * 128
  let pitch := roundUp 128 (s.par .actCols t)
  (t, i / pitch, i % pitch)

/-- A drift map block fails its tag: zero records in the frame, and in memory if the second read fails. -/
def State.driftFail (s : State) (addr : Nat) (ok : Bool) : State :=
  let s := match s.reading with
    | some f =>
      let b := s.driftBlock addr
      s.modFrame f.num fun f => { f with tiles := f.tiles.modify b.1 fun k => { k with badDpr := k.badDpr ++ [b.2] } }
    | none => s
  if ok then s else s.clearMem (addr / 512 * 512) 512

/-- A scratch block fails: the cycle that uses the area aborts with cause CAPTURE_DISTURBED. Area k serves the k-th running
cycle in tile order (log 16). -/
def State.scratchFail (s : State) (k : Nat) : State :=
  match (allTiles.filter fun t => (s.dr t).cycle.isSome)[k]? with
  | some t => s.flyAbort t 10 s.time
  | none => s

/-- The SEC region fails: a C-die fault, and only basecamp's commands until the next reset. No slot's image runs any more (R307). -/
def State.secFail (s : State) : State :=
  let s := (s.raise0 .cf 2 3 0).dieFault 3
  { s with boot := .basecamp, sec := { s.sec with runningSlot := none } }

/-- MEMORY_TAG_FAIL (Table 10.4). Regions without block tags have none to fail. -/
def execMemoryTagFail (t : Time) (addr : Nat) (rereadOk : Bool) (s : State) : Host.Outcome State Fault Refusal :=
  let s := s.advance t
  let note (r : Nat) (s : State) : State :=
    (s.bump .memTagFailCnt).devEvent 0x0A01 (leBytes 1 r ++ leBytes 1 (if rereadOk then 0 else 1) ++ List.replicate 6 0 ++ leBytes 8 addr)
  let s := if s.boot == .running then s.perfEvent 11 0x20 else s
  if s.boot != .running then .next s
  else if addr < 64 * mib then .next (note 0 s).secFail
  else if addr < 0x0C000000 then .next ((note 1 s).driftFail addr rereadOk)
  else if addr < 0x14000000 then .next ((note 1 s).scratchFail ((addr - 0x0C000000) / (64 * mib)))
  else if 0x60000000 ≤ addr && addr < 0x1E0000000 then
    match s.bundle with
    | some b => .next (s.cprFail b addr rereadOk)
    | none => .next s
  else .next s

end Sys2Proof.Machine
end

