-- ==== Sys2Proof/Machine/Streams.lean ====
section
/-!
DEFINITION. Streams and buffer sets (R279 to R281), the abort of a command (R272, R273) and the reset of a context (R257, R259,
R274).
-/
namespace Sys2Proof.Machine

/-! Buffer sets (R279, R280). -/

/-- Entry e of a BUFFER_BIND payload. -/
def bindEntry (p : Bytes) (e : Nat) : BufEntry := { addr := leAt p (16 + 16 * e) 8, len := leAt p (24 + 16 * e) 4 }

/-- The payload has the shape of Table 9.15, with aligned addresses and a usable entry 19. -/
def bindOk (p : Bytes) : Bool :=
  let n := leAt p 0 1
  p.length == 336 && (n < 16 || n == 255) && (sliceB 1 15 p).all (· == 0)
    && ((List.range 20).all fun e => leAt p (28 + 16 * e) 4 == 0 && (bindEntry p e).addr % 64 == 0)
    && (bindEntry p 19).addr != 0 && 256 ≤ (bindEntry p 19).len

/-- BUFFER_BIND (R279, R280). -/
def State.bufferBind (s : State) (x : Ctx) (c : Cmd) : State :=
  let p := c.payload
  let n := leAt p 0 1
  if !bindOk p then s.complete x c .badParam
  else if n = 255 then (s.modCtx x fun k => { k with overflow := some (bindEntry p 19) }).complete x c .done n
  else if ((s.ctx x).sets.getD n .reset).state ≠ .free then s.complete x c .busy
  else
    let b : BufSet := { state := .free, entries := (List.range 20).map (bindEntry p) }
    (s.modCtx x fun k => { k with sets := k.sets.set n b }).complete x c .done n

def execBufferBind (t : Time) (x : Ctx) (tag : BitVec 11) (s : State) : Host.Outcome State Fault Refusal :=
  .next (s.command t x tag 0x2010 fun s c => s.bufferBind x c)

/-- What BUFFER_RELEASE does to a named set, and whether its RESULT bit is set. -/
def BufSet.release (b : BufSet) (unbind : Bool) : BufSet × Bool :=
  let was := b.state == .held || (unbind && !b.entries.isEmpty)
  (if unbind then .reset else { b with state := .free }, was)

/-- A stream of the context is started: its machine-vision delivery, or a port that it owns (R281). -/
def State.hasStream (s : State) (x : Ctx) : Bool :=
  (s.ctx x).mv.started || (List.range 2).any fun p => s.portOwner p == x && (s.outs.getD p .reset).stream.started

/-- BUFFER_RELEASE (R280, R281). -/
def State.bufferRelease (s : State) (x : Ctx) (c : Cmd) : State :=
  let v := leAt c.payload 0 4
  let unbind := bitOf v 17
  let k := s.ctx x
  if c.payload.length ≠ 4 || 2 ^ 18 ≤ v then s.complete x c .badParam
  else if (List.range 16).any fun n => bitOf v n && (k.sets.getD n .reset).state == .filling then s.complete x c .busy
  else if bitOf v 16 && unbind && s.hasStream x then s.complete x c .busy
  else
    let moved := k.sets.mapIdx fun n b => if bitOf v n then b.release unbind else (b, false)
    let slot := bitOf v 16 && unbind && k.overflow.isSome
    let s := s.modCtx x fun k =>
      { k with sets := moved.map (·.1), overflow := if bitOf v 16 && unbind then none else k.overflow }
    s.complete x c .done (maskOf (moved.map (·.2)) + if slot then 65536 else 0)

def execBufferRelease (t : Time) (x : Ctx) (tag : BitVec 11) (s : State) : Host.Outcome State Fault Refusal :=
  .next (s.command t x tag 0x2011 fun s c => s.bufferRelease x c)

/-! STREAM_START (R281). -/

/-- Any PLL coasts (R356). -/
def State.coasting (s : State) : Bool := s.clk.pllA.isCoasting || s.clk.pllC.isCoasting || s.clk.pllM.isCoasting

/-- The streams of a mask: 0 the caller's machine-vision delivery, 1 OUT0, 2 OUT1. -/
def streamsIn (mask : Nat) : List Nat := (List.range 3).filter (bitOf mask)

/-- The status with which a stream mask is refused: a bad mask, a port of another context, a port without a format. -/
def State.maskRefusal (s : State) (x : Ctx) (c : Cmd) : Option Status :=
  let m := leAt c.payload 0 4
  if c.payload.length ≠ 4 || m = 0 || 8 ≤ m then some .badParam
  else if (List.range 2).any fun p => bitOf m (p + 1) && s.portOwner p != x then some .notPermitted
  else if (List.range 2).any fun p => bitOf m (p + 1) && s.portFormat p == 0 then some .badParam
  else none

/-- Another STREAM_STOP that names one of the streams has been fetched and has not completed. -/
def State.stopPending (s : State) (x : Ctx) (c : Cmd) (m : Nat) : Bool :=
  (s.ctx x).inflight.any fun d => d.opcode == 0x2002 && d.order < c.order && leAt d.payload 0 4 &&& m != 0

/-- STREAM_START: it waits for the first numbered tick. -/
def State.streamStart (s : State) (x : Ctx) (c : Cmd) : State :=
  let m := leAt c.payload 0 4
  match s.maskRefusal x c with
  | some st => s.complete x c st
  | none =>
    if s.dbg.level = 2 then s.complete x c .notPermitted
    else if bitOf m 0 && (s.ctx x).overflow.isNone then s.complete x c .badParam
    else if s.thm.shutdown || s.links.gln == .down || s.coasting || s.pair.mode == .detached || s.stopPending x c m then
      s.complete x c .busy
    else
      let live (k : Nat) : Bool := (s.stream x k).started && !(s.stream x k).stopping
      let s := (streamsIn m).foldl (fun s k => s.modStream x k fun e => { e with starting := true }) s
      s.await x c (.streams m ((streamsIn m).any live))

def execStreamStart (t : Time) (x : Ctx) (tag : BitVec 11) (s : State) : Host.Outcome State Fault Refusal :=
  .next (s.command t x tag 0x2001 fun s c => s.streamStart x c)

/-! STREAM_STOP (R281). -/

/-- A waiting STREAM_START loses the streams of a mask; one left with no stream completes ABORTED. -/
def State.withdraw (s : State) (x : Ctx) (m : Nat) : State :=
  let s := (streamsIn m).foldl (fun s k => s.modStream x k fun e => { e with starting := false }) s
  let less (w : Wait) : Wait :=
    match w with
    | .streams a marked => .streams (a &&& (7 - m % 8)) marked
    | _ => w
  let s := s.modCtx x fun k => { k with inflight := k.inflight.map fun c => { c with wait := less c.wait } }
  s.completeWhere fun y c => match c.wait with
    | .streams 0 _ => if y = x then some (.aborted, 0) else none
    | _ => none

/-- A STREAM_STOP of the context waits for the stream's last frame. -/
def State.stopWaits (s : State) (x : Ctx) (k : Nat) : Bool :=
  (s.ctx x).inflight.any fun d => match d.wait with
    | .stopping m _ => bitOf m k
    | _ => false

/-- STREAM_STOP. A stream whose stop has taken effect counts as started for a further STREAM_STOP while the first one drains; a stream
that a reset has stopped does not. A started stream that a waiting STREAM_START names is withdrawn from it, and stops (log 145). -/
def State.streamStop (s : State) (x : Ctx) (c : Cmd) : State :=
  let m := leAt c.payload 0 4
  match s.maskRefusal x c with
  | some st => s.complete x c st
  | none =>
    let on := (streamsIn m).filter fun k => (s.stream x k).started || s.stopWaits x k
    let pend := maskOf ((List.range 3).map fun k => bitOf m k && (s.stream x k).starting)
    let marked := on.length < (streamsIn m).length
    let s := if pend = 0 then s else s.withdraw x pend
    let s := on.foldl (fun s k => s.modStream x k fun e => { e with stopping := e.stopping || e.started }) s
    if on.isEmpty then s.complete x c .doneMarked 0xFFFFFFFF else s.await x c (.stopping (on.map (2 ^ ·)).sum marked)

def execStreamStop (t : Time) (x : Ctx) (tag : BitVec 11) (s : State) : Host.Outcome State Fault Refusal :=
  .next (s.command t x tag 0x2002 fun s c => s.streamStop x c)

/-- A frame still owes the stream something. -/
def State.streamOwes (s : State) (x : Ctx) (k : Nat) : Bool :=
  s.frames.any fun f =>
    if k = 0 then f.deliveries.any fun d => d.ctx == x && !d.done
    else f.ports.getD (k - 1) none == some x && !f.portsDone.getD (k - 1) true

/-- The stop of a stream has taken effect and its last frame is delivered or represented. -/
def State.streamQuiet (s : State) (x : Ctx) (k : Nat) : Bool := !(s.stream x k).started && !s.streamOwes x k

/-- STREAM_STOP_COMPLETE (R281): the last frame of every stream of the stop is out. -/
def State.stopComplete (s : State) (x : Ctx) (c : Cmd) : State :=
  match c.wait with
  | .stopping m marked =>
    if (streamsIn m).all fun k => s.streamQuiet x k then
      let last := ((streamsIn m).map fun k => (s.stream x k).lastFrame).foldl max 0
      let s := (streamsIn m).foldl (fun s k => s.modStream x k fun e => { e with draining := false }) s
      s.complete x c (if marked then .doneMarked else .done) (last % 2 ^ 32)
    else s
  | _ => s

def execStreamStopComplete (t : Time) (x : Ctx) (tag : BitVec 11) (s : State) : Host.Outcome State Fault Refusal :=
  let s := s.advance t
  match (s.ctx x).inflight.find? fun c => c.tag % 2048 == tag.toNat with
  | some c => .next (s.stopComplete x c)
  | none => .next s

/-! ABORT (R272, R273). -/

/-- A waiting command leaves the queue of the NV commit buffer (R375). -/
def State.leaveNvQueue (s : State) (x : Ctx) (c : Cmd) : State :=
  s.modNv fun n => { n with waiting := n.waiting.filter fun g => g.owner != some (x, c.tag % 2048) }

/-- Another STREAM_START of the context waits for the stream too. -/
def State.startedBy (s : State) (x : Ctx) (c : Cmd) (k : Nat) : Bool :=
  (s.ctx x).inflight.any fun d => d.order != c.order && (match d.wait with | .streams m _ => bitOf m k | _ => false)

/-- What an ABORT does to a command in flight: it ends with a status at its abort point, or goes on (none). That of a FLY_CYCLE clears
HOST of its open tiles, though another FLY_CYCLE may have asked for one of them too (R162; log 154). -/
def State.abortCmd (s : State) (x : Ctx) (c : Cmd) (st : Status) : Option State :=
  match c.wait with
  | .notStarted => some (s.complete x c st 0 false).nvSettle
  | .commitDue | .nvRead _ | .flyClear _ => some (s.complete x c st)
  | .streams m _ =>
    let mine := (streamsIn m).filter fun k => (s.stream x k).starting && !s.startedBy x c k
    some ((mine.foldl (fun s k => s.modStream x k fun e => { e with starting := false }) s).complete x c st)
  | .moving n => some (s.complete x c st n)
  | .nvQueued _ | .commitNv none _ | .transfer 1 none => some ((s.leaveNvQueue x c).complete x c st).nvSettle
  | .calNv none => some (({ (s.leaveNvQueue x c) with act := .none } : State).complete x c st).nvSettle
  | .download 1 _ none =>
    let s := s.leaveNvQueue x c
    some (({ s with sec := { s.sec with dl := none } } : State).complete x c st).nvSettle
  | .fly asked done _ aborted faulted =>
    let clear (s : State) (t : Tile) : State :=
      if bitOf asked t && !bitOf (done ||| aborted ||| faulted) t && (s.dr t).cycle.isNone && !s.peerCycle t then
        s.modDrift t fun k => { k with reasons := k.reasons &&& 0b01111, force := false }
      else s
    let open_ := maskOf (allTiles.map fun (t : Tile) =>
      bitOf asked t && !bitOf (done ||| aborted ||| faulted) t && s.pair.mode == .paired && !s.owns t && !s.peerCycle t)
    let s := if open_ = 0 then s else s.pairSend .request ([2] ++ leBytes 1 open_)
    some ((allTiles.foldl clear s).complete x c st)
  | _ => none

/-- ABORT. -/
def State.abort (s : State) (x : Ctx) (c : Cmd) : State :=
  let tag := leAt c.payload 0 2
  if c.payload.length ≠ 2 then s.complete x c .badParam
  else if !s.ownsTag x (tag % 2048) then s.complete x c .notPermitted
  else if tag / 2048 ≠ s.genOf (tag % 2048) then (s.bump .hostStaleCnt x).complete x c .staleGeneration
  else
    match (s.ctx x).inflight.find? fun d => d.tag % 2048 == tag % 2048 with
    | none => s.complete x c .done 1
    | some d =>
      if d.tag % 2048 = c.tag % 2048 then s.complete x c .done 1
      else
        match s.abortCmd x d .aborted with
        | some s => s.complete x c .done 0
        | none => s.await x c (.aborting (tag % 2048))

def execAbort (t : Time) (x : Ctx) (tag : BitVec 11) (s : State) : Host.Outcome State Fault Refusal :=
  .next (s.command t x tag 0x0020 fun s c => s.abort x c)

/-- COMMAND_TIMEOUT (R273). -/
def execCommandTimeout (t : Time) (x : Ctx) (tag : BitVec 11) (s : State) : Host.Outcome State Fault Refusal :=
  let s := s.advance t
  match (s.ctx x).inflight.find? fun c => c.tag % 2048 == tag.toNat with
  | none => .next s
  | some c =>
    match c.deadline with
    | some d => if d ≤ s.time then .next ((s.abortCmd x c .timeout).getD s) else .next s
    | none => .next s

/-! The reset of a context (R257, R259, R274). -/

/-- Why a context is reset, with the code of its CONTEXT_RESET event. -/
inductive ResetWhy where | command | flr | rebind | unbind | hot
deriving DecidableEq, Repr

def ResetWhy.code : ResetWhy → Nat
  | .command => 1
  | .flr => 2
  | .rebind | .unbind => 3
  | .hot => 4

/-- The function of the context cannot write host memory (R259). -/
def ResetWhy.quiet : ResetWhy → Bool
  | .flr | .hot => true
  | _ => false

/-- Every command of a context but the caller's ends as ABORT would end it. While the function is off no reply is
written: the rings are off first. Answers how many were aborted. -/
def State.abortAll (s : State) (y : Ctx) (skip : Option Nat) : Nat × State :=
  ((s.ctx y).inflight.filter fun c => some (c.tag % 2048) != skip).foldl (fun (a : Nat × State) c =>
    match a.2.abortCmd y c .aborted with
    | some s => (a.1 + 1, s)
    | none => a) (0, s)

/-- A frame owes a context nothing more. -/
def Frame.forget (f : Frame) (y : Ctx) : Frame :=
  { f with
    deliveries := f.deliveries.map fun d => if d.ctx = y then { d with done := true } else d
    portsDone := f.portsDone.mapIdx fun p b => b || f.ports.getD p none == some y }

/-- The frames in flight get failed-frame records in a context, or are forgotten there where it cannot be written. -/
def State.endFrames (s : State) (y : Ctx) (quiet : Bool) : State :=
  s.frames.foldl (fun s f =>
    let s := if f.owed.contains y then
        if quiet then
          match f.deliveries.find? fun d => d.ctx == y && !d.done with
          | some d => (match d.set with | some n => s.freeSet y n | none => s)
          | none => s
        else s.failFor f 7 y
      else s
    (s.modFrame f.num (·.forget y)).dropFrame f.num) s

/-- The streams of a context stop as STREAM_STOP stops them. -/
def State.stopAll (s : State) (y : Ctx) : State :=
  let mine := (List.range 3).filter fun k => k = 0 || s.portOwner (k - 1) == y
  let s := mine.foldl (fun s k => s.modStream y k fun e => { e with starting := false, stopping := e.stopping || e.started }) s
  (mine.filter (· != 0)).foldl (fun s k =>
    { s with outs := s.outs.modify (k - 1) fun o =>
      { o with sending := none, state := if o.state = 2 then 1 else o.state } }) s

/-- The bundle under import has its identity in the NV store: on a LEAD that waits for its PARTNER, and on the PARTNER (R190,
R335). -/
def State.identityDone (s : State) : Bool := s.pair.ownBundle || (s.linked && s.pair.role == 1)

/-- An import session can be cancelled: no END has committed its identity (R191). -/
def State.cancellable (s : State) : Bool := s.act == .none || (s.act == .committing && !s.identityDone)

/-- A context is reset (R274, in its order). Answers how many commands were aborted. -/
def State.resetCtx (s : State) (y : Ctx) (why : ResetWhy) (skip : Option Nat) : Nat × State :=
  let s : State := if why.quiet then
      s.modCtx y fun k =>
        { k with
          ringsOn := false, sq := .reset, cq := .reset, eq := .reset, sqSlots := [], ringErr := 0, fetchStop := false
          busOff := true }
    else s
  let r := s.abortAll y skip
  let s := (r.2.stopAll y).endFrames y why.quiet
  let s := s.modCtx y fun k => { k with sets := List.replicate 16 .reset }
  let s : State := match s.session with
    | some k => if k.owner = y && s.cancellable then
        ({ s with act := .none } : State).cancelSession (if why = .unbind then 3 else 2) else s
    | none => s
  let ended := r.1 + (r.2.ctx y).inflight.length - (s.ctx y).inflight.length
  let s := s.modCtx y fun k => { k with staged := [], evtMask := 0 }
  let s := if why.quiet then
      s.modCtx y fun k =>
        { k with
          heldReset := some (why.code, s.stamp), auth := none, replies := [], events := [], lost := none, irqStatus := 0, irqMask := 7
          irqHold := 0, irqBack := 0, irqAt := [0, 0], dpAddr := 0, dpStatus := 0 }
    else s.eventTo y 0x0003 (leBytes 1 why.code)
  (ended, s)

/-- The reset of a forwarding context resets its partner context too (R342). -/
def State.resetPartner (s : State) (y : Ctx) : State :=
  if s.pair.mode == .paired && s.parBit .pairFwd y 0 then s.pairSend .command (leBytes 1 (s.partnerCtx y) ++ [1]) else s

/-- RESET_CONTEXT (R274). -/
def State.resetContext (s : State) (x : Ctx) (c : Cmd) : State :=
  let n := leAt c.payload 0 1
  let y : Ctx := if h : n < 8 then ⟨n, h⟩ else x
  if c.payload.length ≠ 1 || !(n < 8 || n == 255) then s.complete x c .badParam
  else if y ≠ x && s.roleOf x ≠ 1 then s.complete x c .notPermitted
  else
    let r := s.resetCtx y .command (if y = x then some (c.tag % 2048) else none)
    ((r.2.resetPartner y).await x c (.resetting y r.1)).settleAborts ((r.2.ctxs.map fun k => k.inflight.length).sum)

def execResetContext (t : Time) (x : Ctx) (tag : BitVec 11) (s : State) : Host.Outcome State Fault Refusal :=
  .next (s.command t x tag 0x0010 fun s c => s.resetContext x c)

/-- A context's binding or role changes at a tick (R257): reset under the old binding, rings off, authentication lost. -/
def State.rebind (s : State) (y : Ctx) (unbound : Bool) : State :=
  (s.resetCtx y (if unbound then .unbind else .rebind) none).2.modCtx y fun k =>
    { k with
      ringsOn := false, ringErr := 0, fetchStop := false, busOff := false, sqSlots := [], lost := none, auth := none
      challenge := none }

end Sys2Proof.Machine
end

