-- ==== Sys2Proof/Machine/Commit.lean ====
section
/-!
DEFINITION. PARAM_COMMIT (R28, R36, R257, R289): the evaluation of staged values at a tick or after 100 ms without one, and what a
change of the active configuration does.
-/
namespace Sys2Proof.Machine

/-! Applying a configuration. -/

/-- A parameter of a tile, at its own index or at those of its taps. -/
def changed (a b : State) (p : Param) (i : Nat) : Bool := a.par p i != b.par p i

def geometryParams : List Param :=
  [.tileKind, .actCols, .actRows, .refRows, .tapMode, .hdrEn, .winEn, .winStart, .winRows, .digRefCols, .digFmt, .digLag]

def mergeParams : List Param := [.intLStart, .intLLen, .intSLen, .mergeKnee, .mergeRatioOvr]

/-- The tile configuration of t differs (R159). -/
def tileConfigChanged (a b : State) (t : Nat) : Bool :=
  (geometryParams ++ mergeParams).any (fun p => changed a b p t)
    || (List.range 8).any (fun k => changed a b .afeGain (8 * t + k) || changed a b .afeOfs (8 * t + k))
    || a.parField .flyCfg t 15 14 != b.parField .flyCfg t 15 14

/-- The front end or the converter of a tap or channel of the tile differs (R88). -/
def frontEndChanged (a b : State) (t : Nat) : Bool :=
  (List.range 8).any (fun k => changed a b .afeGain (8 * t + k) || changed a b .afeOfs (8 * t + k))
    || a.parField .ilvEn 0 (4 * t + 3) (4 * t) != b.parField .ilvEn 0 (4 * t + 3) (4 * t) || changed a b .adcSphase t

/-- What a change does to a tile: enable or shutdown, which aborts its flysheet cycle (R72, R73, R163), a missing row f (R63, R88; a new
INT_S_LEN too while HDR_EN = 0 keeps TINT_S low, log 146), the flysheet (R150, R165), the tile configuration (R159), the common mode
(R168) and the temporal history (R213). A tile that becomes analog while it is enabled loses no row (log 135). a is the state before. -/
def State.applyTile (s a : State) (t : Tile) : State :=
  let was := a.tileOn t
  let now := s.tileOn t
  let s := if !was && now then s.enableTile t else if was && !now then (s.disableTile t 1).flyAbort t 11 s.time else s
  let s := if was && now && !s.isDigital t
      && (s.firstRow t != a.firstRow t || frontEndChanged a s t
        || [Param.hdrEn, .intLStart, .intLLen, .intSLen].any fun p => changed a s p t) then
      s.modTile t fun k => { k with firstMissing := true }
    else s
  let s := if s.flyEn t != a.flyEn t then s.flyEnChange t (s.flyEn t) else s
  let conf := tileConfigChanged a s t
  let cm := a.parField .flyCfg t 15 14 != s.parField .flyCfg t 15 14
  let hist := changed a s .radQty t || a.parBit .outMvFmt 0 2 != s.parBit .outMvFmt 0 2
    || geometryParams.any (fun p => changed a s p t) || (!a.parBit .filtEn t 0 && s.parBit .filtEn t 0)
  s.modDrift t fun k =>
    { k with
      cfgChanged := k.cfgChanged || conf, cmChanged := k.cmChanged || cm, histEmpty := k.histEmpty || hist
      cycle := if conf then k.cycle.map fun c => { c with cfg := true } else k.cycle }

/-- The new source alone produces ticks from a moment on (R28). -/
def State.switchSource (s : State) (ts : Time) : State :=
  let k := { s.tick with lastAccepted := false, suppressed := none, newSource := false, fsCount := 0 }
  if s.par .tickSrc = 0 then { s with tick := { k with state := .internal, next := ts + 10 * s.par .tickPeriod } }
  else { s with tick := { k with state := .waitFirst, entered := ts, measured := none } }

/-- A change of TICK_SRC waits for the end of its evaluation: it takes effect at the tick, or at the moment of an evaluation
without one (R28). -/
def State.markSource (s a : State) : State :=
  if changed a s .tickSrc 0 then { s with tick := { s.tick with newSource := !s.tick.newSource } } else s

/-- A changed source takes over. -/
def State.takeSource (s : State) (ts : Time) : State := if s.tick.newSource then s.switchSource ts else s

/-- A new polarity of FSYNC needs three inactive samples before its first edge (R29). -/
def State.markPolarity (s a : State) : State :=
  if changed a s .fsyncPol 0 then { s with tick := { s.tick with fsArmed := false } } else s

/-- The values of a staged set that go to registers of the F-die. -/
def farValues (staged : List (Nat × Word)) : List (Nat × Word) := staged.filter fun e => match paramOf e.1 with
  | some (p, i) => onFDie p i
  | none => false

/-- Staged values become active; those of the F-die cross the guyline. -/
def State.applyStaged (s : State) (staged : List (Nat × Word)) : State :=
  let s := s.valuesAcross .cf (farValues staged)
  let v := s.withStaged staged
  let s := allCtx.foldl (fun s (x : Ctx) =>
    if changed s v .hostCtxBind x then s.rebind x (v.parField .hostCtxBind x 3 0 == 0) else s) s
  let a := s
  let s := s.withStaged staged
  let s := allTiles.foldl (fun s t => s.applyTile a t) s
  let s := if (stagedParams staged).any (fun e => e.1.group == some .hk && changed a s e.1 e.2) then
      s.modHk fun h => { h with newCfg := true }
    else s
  let cam (c : Nat) : Bool := changed a s .auxCamCfg c || changed a s .auxCamSize c
  let s := if (List.range 4).any cam then s.auxDiscard 1 cam else s
  let s := if changed a s .clkASrc 0 then
      let r := s.relockTime
      ({ r.2 with clk := { r.2.clk with pllA := .switching s.time r.1 none, srcNext := s.par .clkASrc } } : State)
    else s
  ((s.markSource a).markPolarity a).publishGeometry

/-- The staged set without the values that have become active. -/
def State.unstage (s : State) (x : Ctx) (vals : List (Nat × Word)) : State :=
  s.modCtx x fun k => { k with staged := k.staged.filter fun e => !vals.contains e }

/-! Evaluation. -/

/-- A staged set whose values can reach their registers: one with a register of the F-die needs the guyline (R18, R282). -/
def State.reaches (s : State) (staged : List (Nat × Word)) : Bool :=
  s.fdieUp || (stagedParams staged).all fun e => !onFDie e.1 e.2

/-! In a pair (R331). The LEAD forwards the staged shared values of a commit, the PARTNER answers with its mask, and at the tick
the LEAD's decision reaches the PARTNER ahead of its own tick (log 117). -/

/-- The shared values of a staged set. -/
def sharedOf (staged : List (Nat × Word)) : List (Nat × Word) := staged.filter fun e => sharedId e.1

/-- The PARTNER's mask for a commit of a LEAD; none while its answer to the present staged values has not come. -/
def State.peerMask (s : State) (c : Cmd) (staged : List (Nat × Word)) : Option Nat :=
  let shared := sharedOf staged
  if !s.isLead || shared.isEmpty then some 0
  else if s.pair.sync.any fun e => e.1 == c.order && e.2.2 == shared then (s.pair.verdicts.find? fun v => v.1 == c.order).map (·.2)
  else none

/-- The LEAD forwards the staged shared values of a commit, unless they are with the PARTNER already. -/
def State.forwardCommit (s : State) (c : Cmd) (staged : List (Nat × Word)) : State :=
  let shared := sharedOf staged
  if !s.isLead || shared.isEmpty || (s.pair.sync.any fun e => e.1 == c.order && e.2.2 == shared) then s
  else
    let rest := s.pair.sync.filter fun e => e.1 != c.order
    let s : State := { s with pair := { s.pair with
      sync := rest ++ [(c.order, false, shared)], verdicts := s.pair.verdicts.filter fun v => v.1 != c.order } }
    s.pairSend .paramSync (1 :: leBytes 8 c.order ++ valueBytes shared)

/-- The LEAD's decision on a commit that it forwarded. -/
def State.tellDecision (s : State) (c : Cmd) (ok atTick : Bool) : State :=
  if s.isLead && s.pair.sync.any fun e => e.1 == c.order then
    let s : State := { s with pair := { s.pair with
      sync := s.pair.sync.filter fun e => e.1 != c.order, verdicts := s.pair.verdicts.filter fun v => v.1 != c.order } }
    s.pairSend .paramSync (2 :: leBytes 8 c.order ++ leBytes 1 (maskOf [ok, atTick]))
  else s

/-- The PARTNER's masks for the commits of the LEAD that wait for a tick, in their order, each over the state that the earlier ones
leave: what an evaluation at that tick finds as long as nothing else changes (R331, R289). -/
def State.syncMasks (s : State) : List (Nat × Nat) :=
  (s.pair.sync.foldl (fun (a : State × List (Nat × Nat)) e =>
    let mask := (a.1.coherence e.2.2).mask
    (if mask = 0 then a.1.withStaged e.2.2 else a.1, a.2 ++ [(e.1, mask)])) (s, [])).2

/-- The PARTNER answers, and answers anew whenever what its masks rest on has changed (log 117). -/
def State.syncVerdicts (s : State) : State :=
  if s.isPartner then s.syncMasks.foldl (fun s e => s.pairSend .paramSync (3 :: leBytes 8 e.1 ++ leBytes 4 e.2)) s else s

/-- A commit is evaluated (R289). frame: what RESULT holds if its values apply; peer: the PARTNER's mask (R331). -/
def State.evaluateCommit (s : State) (x : Ctx) (c : Cmd) (frame peer : Nat) (atTick : Bool) : State :=
  let staged := (s.ctx x).staged
  let r := s.coherence staged
  let mask := r.mask ||| peer
  if staged.isEmpty then s.complete x c .done 0xFFFFFFFF
  else if !s.reaches staged then (s.tellDecision c false atTick).complete x c .failedFault
  else if mask ≠ 0 then
    ((s.tellDecision c false atTick).ctxEvent x 0x0E00
      (leBytes 4 mask ++ leBytes 2 (r.first.getD 0) ++ [0, 0] ++ leBytes 4 c.hseq)).complete x c .incoherent mask
  else if s.stagesPersistent x then
    if !s.nvUp then (s.tellDecision c false atTick).complete x c .failedFault
    else if s.nv.spares.length < 64 then (s.tellDecision c false atTick).complete x c .nvFull
    else
      (s.await x c (.commitNv none staged)).nvSubmit
        { ups := [], now := true, owner := some (x, c.tag % 2048), act := .params staged }
  else (((s.tellDecision c true atTick).applyStaged staged).unstage x staged).complete x c .done frame

/-- A command whose commit is due by the limits: evaluated, once the PARTNER's answer is there, or applied after its journal
commit. -/
def State.commitStep (s : State) (x : Ctx) (c : Cmd) (frame : Nat) (atTick : Bool) : State :=
  match c.wait with
  | .commitDue =>
    match s.peerMask c (s.ctx x).staged with
    | some peer => s.evaluateCommit x c frame peer atTick
    | none => s.forwardCommit c (s.ctx x).staged
  | .commitApply vals _ => (((s.tellDecision c true atTick).applyStaged vals).unstage x vals).complete x c .done frame
  | _ => s

/-- The commits that are due, in fetch order; those of a halted core wait (R416). -/
def State.dueCommits (s : State) (due : Cmd → Bool) : List (Ctx × Cmd) :=
  ((allCtx.flatMap fun x => (s.ctx x).inflight.map fun c => (x, c)).filter fun e => due e.2 && s.coreRuns e.1).mergeSort
    fun a b => a.2.order ≤ b.2.order

/-- They are evaluated one after the other; one that an earlier commit's change of binding has ended takes no part. -/
def State.runCommits (s : State) (due : Cmd → Bool) (frame : Nat) (atTick : Bool) : State :=
  (s.dueCommits due).foldl (fun s e =>
    match (s.ctx e.1).inflight.find? fun c => c.order == e.2.order with
    | some c => s.commitStep e.1 c frame atTick
    | none => s) s

/-- A commit is due at a tick: fetched at least 50 µs before it, or with its journal commit behind it. -/
def dueAtTick (ts : Time) (c : Cmd) : Bool :=
  match c.wait with
  | .commitDue => c.fetched + 50000 ≤ ts
  | .commitApply _ since => since ≤ ts
  | _ => false

/-- A commit that has waited 100 ms without a tick. -/
def dueWithoutTick (now : Time) (c : Cmd) : Bool :=
  match c.wait with
  | .commitDue => c.fetched + 100000000 ≤ now
  | .commitApply _ since => since + 100000000 ≤ now
  | _ => false

/-- The three delivery streams of a context or of a port, as context and kind. -/
def State.allStreams (s : State) : List (Ctx × Nat) := (allCtx.map fun x => (x, 0)) ++ [(s.portOwner 0, 1), (s.portOwner 1, 2)]

/-- A start or a stop of a stream waits for the coming tick, and its core is not halted (R416). -/
def State.startDue (s : State) (e : Ctx × Nat) : Bool := (s.stream e.1 e.2).starting && s.coreRuns e.1
def State.stopDue (s : State) (e : Ctx × Nat) : Bool := (s.stream e.1 e.2).stopping && s.coreRuns e.1

/-- The coming tick is numbered: a stream is started and not about to stop, or about to start (R24). -/
def State.willNumber (s : State) : Bool :=
  s.allStreams.any fun e => ((s.stream e.1 e.2).started && !s.stopDue e) || s.startDue e

/-- RESULT of the commits that a tick applies: its frame number, if it is numbered once they have applied; on a PARTNER the LEAD's
message says whether it is (R24, R289, R329). -/
def State.commitFrame (s : State) (due : Cmd → Bool) (lead : Option Bool) : Nat :=
  if lead.getD (s.runCommits due 0 true).willNumber then s.tick.nextFrame % 2 ^ 32 else 0xFFFFFFFF

/-- The commits of a tick. -/
def State.tickCommits (s : State) (ts : Time) (lead : Option Bool) : State :=
  s.runCommits (dueAtTick ts) (s.commitFrame (dueAtTick ts) lead) true

/-- PARAM_COMMIT (R289). -/
def State.paramCommit (s : State) (x : Ctx) (c : Cmd) : State :=
  let flags := leAt c.payload 0 4
  if c.payload.length ≠ 4 || 1 < flags then s.complete x c .badParam
  else if flags = 1 then (s.modCtx x fun k => { k with staged := [] }).complete x c .done
  else if (s.ctx x).staged.isEmpty then s.complete x c .done 0xFFFFFFFF
  else (s.forwardCommit c (s.ctx x).staged).await x c .commitDue

def execParamCommit (t : Time) (x : Ctx) (tag : BitVec 11) (s : State) : Host.Outcome State Fault Refusal :=
  .next (s.command t x tag 0x1003 fun s c => s.paramCommit x c)

/-- COMMIT_EVALUATION (R289): the commits that the device's own tick falling due at this instant evaluates, ahead of the tick itself.
That tick still comes from the old source (R28). -/
def execCommitEvaluation (t : Time) (s : State) : Host.Outcome State Fault Refusal :=
  let s := s.advance t
  if s.tickInstant then .next (s.endReading.tickCommits s.tick.next none) else .next s

/-- COMMIT_NO_TICK_TIMEOUT (R289): no stream is started, and no tick has come for 100 ms. -/
def execCommitNoTickTimeout (t : Time) (s : State) : Host.Outcome State Fault Refusal :=
  let s := s.advance t
  if s.anyStream then .next s
  else .next ((s.runCommits (dueWithoutTick s.time) 0xFFFFFFFF false).syncVerdicts.takeSource s.time)

end Sys2Proof.Machine
end

