-- ==== Sys2Proof/Machine/Counters.lean ====
section
/-!
DEFINITION. Counter snapshots, the counter registers and sampling (R398 to R410).
-/
namespace Sys2Proof.Machine

/-! What the spec does not time. -/

/-- Events whose number of occurrences the spec does not fix (unit, code): cycles of a condition of the links, engine clocks, memory
activity, instructions and lock waits of the cores, hash blocks. A counter that selects one gains a free number whenever what it has
counted matters: at each latch and before its registers change (log 17). -/
def openEvent (u code : Nat) : Bool :=
  match u with
  | 3 => code == 0x13
  | 4 => code == 0x12
  | 7 => code == 0x13
  | 11 => code != 0 && code != 0x20
  | 13 => within 0x10 0x13 code || code == 0x18
  | 14 => code == 0x10 || code == 0x11
  | _ => false

/-- Counter j of unit u gains a free number, up to an instant, if it selects such an event. -/
def State.openCount (s : State) (at_ : Time) (u j : Nat) : State :=
  let code := s.par .perfEvsel (8 * u + j)
  let ctl := s.par .perfCtl u
  if openEvent u code && bitOf ctl 0 && !bitOf ctl 1 then
    let r := s.takeFree 48
    let f (cu : CounterUnit) : CounterUnit := cu.count (bitOf ctl (2 + j / 2)) j r.1
    { r.2 with perf := { r.2.perf with units := r.2.perf.units.modify u fun cu => cu.changeAt at_ f } }
  else s

/-- Halted cycles of the cores count in unit 13 (R399): those since a core halted, or since they were last counted, up to an instant. -/
def State.countHalted (s : State) (at_ : Time) : State :=
  let now := ((s.perf.unitsAt s.clk at_).getD 13 .reset).cycles
  (List.range 4).foldl (fun s c =>
    if (s.dbg.halted.getD c none).isSome then
      let n := (now - s.dbg.haltMarks.getD c 0) / 40000
      let s := s.perfEventAt at_ 13 (0x14 + c) n
      { s with dbg := { s.dbg with haltMarks := s.dbg.haltMarks.modify c (· + 40000 * n) } }
    else s) s

/-- Cycles with a BIAS_SETTLED bit clear count in unit 0 up to an instant since which no such bit has changed (Table 14.1). -/
def State.countBias (s : State) (at_ : Time) : State :=
  let n := (s.perf.biasClear - s.biasCycles at_ s.perf.upTo - s.perf.biasMark) / 40000
  let s := s.perfEventAt at_ 0 0x12 n
  { s with perf := { s.perf with biasMark := s.perf.biasMark + 40000 * n } }

/-- Flits that a transmitter has sent up to an instant count in its unit (Table 14.1). -/
def State.countFlits (s : State) (at_ : Time) (d : LinkDir) (u : Nat) : State :=
  let sent := (s.side d).flits
  (s.perfEventAt at_ u 0x10 ((sent.filter fun e => e.1 ≤ at_).map (·.2)).sum).modSide d fun k =>
    { k with flits := sent.filter fun e => at_ < e.1 }

/-- The counters of a unit take in what has occurred up to an instant. -/
def State.countUnit (s : State) (u : Nat) (at_ : Time) : State :=
  let s := match u with
    | 0 => s.countBias at_
    | 3 => s.countFlits at_ .fc 3
    | 6 => s.nodesTo at_
    | 13 => s.countHalted at_
    | 15 => s.countFlits at_ .vx 15
    | _ => s
  (List.range 8).foldl (fun s j => s.openCount at_ u j) s

/-- The slots of a lane that no class holds yet are starved or stalled: the split is a free number (R406, R407, log 17). -/
def State.splitLane (s : State) (cycles l : Nat) : State :=
  let k := s.perf.lanes.getD l .reset
  let rest := cycles - (k.retired + k.wasted + k.starved + k.stalled + k.pending)
  let r := s.takeFree 64
  let st := r.1 % (rest + 1)
  let f (k : Lane) : Lane := { k with stalled := k.stalled + st, starved := k.starved + (rest - st) }
  { r.2 with perf := { r.2.perf with lanes := r.2.perf.lanes.modify l f } }

/-! Snapshots (R402 to R405). -/

def CounterUnit.bytes (c : CounterUnit) : Bytes :=
  leBytes 8 c.cycleCount ++ (List.range 8).flatMap (fun j => leBytes 6 (c.cnt.getD j 0)) ++ leBytes 1 c.ovf.toNat
    ++ List.replicate 7 0

def Lane.bytes (l : Lane) : Bytes := leBytes 8 l.retired ++ leBytes 8 l.wasted ++ leBytes 8 l.starved ++ leBytes 8 l.stalled

/-- The record of Table 14.2. While the guyline is down, units 0 to 4 are not latched. -/
def State.snapshotBytes (s : State) (units : List CounterUnit) (cause : Nat) (at_ : Time) : Bytes :=
  let ok (u : Nat) : Bool := 5 ≤ u || s.links.gln != .down
  leBytes 4 s.perf.snapSeq ++ leBytes 6 s.tick.frameNum ++ leBytes 1 cause ++ [0] ++ leBytes 2 (maskOf ((List.range 16).map ok))
    ++ [0, 0] ++ leBytes 8 at_ ++ List.replicate 40 0
    ++ (List.range 16).flatMap (fun u => if ok u then (units.getD u .reset).bytes else List.replicate 64 0)
    ++ (List.range 8).flatMap (fun l => (s.perf.lanes.getD l .reset).bytes)
    ++ (List.range 8).flatMap (fun l => leBytes 8 (s.perf.lanes.getD l .reset).pending) ++ List.replicate 128 0

/-- The reader latches every counter of every unit, as it stands at an instant (R402). -/
def State.latch (s : State) (cause : Nat) (at_ : Time) (owner : Option (Ctx × Nat)) : State :=
  let s := (List.range 16).foldl (fun s u => s.countUnit u at_) s
  let units := (s.perf.unitsAt s.clk at_).map (·.latched at_)
  let s := (List.range 8).foldl (fun s l => s.splitLane (units.getD 6 .reset).cycleCount l) s
  let b := s.snapshotBytes units cause at_
  { s with perf := { s.perf with latched := s.perf.latched ++ [(b, owner)], snapSeq := (s.perf.snapSeq + 1) % 2 ^ 32 } }

/-- The snapshot of a numbered tick (R402). -/
def State.tickSnapshot (s : State) (ts : Time) : State :=
  if s.parBit .perfSnapCfg 0 0 then
    let n := s.perf.tickCnt + 1
    if s.parField .perfSnapCfg 0 8 1 ≤ n then
      ({ s with perf := { s.perf with tickCnt := 0 } } : State).latch 0 ts none
    else { s with perf := { s.perf with tickCnt := n } }
  else s

/-- SEQ of the newest record in the ring. -/
def State.newestSeq (s : State) : Nat := s.perf.snapSeq - s.perf.latched.length - 1

/-- PERF_SNAPSHOT (R403). -/
def State.perfSnapshot (s : State) (x : Ctx) (c : Cmd) (sg : Nat) : State :=
  if !c.payload.isEmpty || (c.sgAddr != 0 && s.sgLength x c sg < 1536) then s.complete x c .badParam
  else if let some st := s.areaStop x c false then s.complete x c st
  else if 2 ≤ s.perf.latched.length then s.complete x c .busy
  else (s.await x c .snapshot).latch 1 s.time (some (x, c.tag % 2048))

def execPerfSnapshot (t : Time) (x : Ctx) (tag : BitVec 11) (sg : Nat) (s : State) : Host.Outcome State Fault Refusal :=
  .next (s.command t x tag 0xA001 fun s c => s.perfSnapshot x c sg)

/-- SNAPSHOT_WRITTEN (R402 to R404): the oldest latched record is in the ring. -/
def State.snapshotWritten (s : State) : State :=
  match s.perf.latched with
  | [] => s
  | (b, owner) :: r =>
    let entry := leAt b 0 4 % 64
    let s := ({ s with perf := { s.perf with latched := r, snapIdx := entry } } : State).writeMem (snapAddr + 1536 * entry) b
    match owner with
    | none => s
    | some (x, tag) =>
      match (s.ctx x).inflight.find? fun c => c.tag % 2048 == tag && c.wait == .snapshot with
      | some c => (s.sgWrite x c b).complete x c .done entry
      | none => s

def execSnapshotWritten (t : Time) (s : State) : Host.Outcome State Fault Refusal := .next (s.advance t).snapshotWritten

/-! Counter registers (R399 to R401). -/

/-- A clear at an instant: what the unit held before it is kept (R401). -/
def CounterUnit.noteClear (c : CounterUnit) (t : Time) : CounterUnit :=
  { c with before := { time := t, clear := true, cnt := c.cnt, ovf := c.ovf } :: c.before.filter fun p => t < p.time + 100000 }

/-- Counters of a unit go to 0 with their overflow bits. -/
def State.clearCounters (s : State) (u : Nat) (which : Nat → Bool) : State :=
  let keep : BitVec 8 := BitVec.ofNat 8 (maskOf ((List.range 8).map fun j => !which j))
  let f (c : CounterUnit) : CounterUnit :=
    { c.noteClear s.time with cnt := c.cnt.mapIdx fun j v => if which j then 0 else v, ovf := c.ovf &&& keep }
  { s with perf := { s.perf with units := s.perf.units.modify u f } }

/-- A write to PERF_EVSEL clears the counter and its chained partner. -/
def State.perfEvsel (s : State) (u j v : Nat) : State × Status :=
  if eventCodeOk u v then
    let s := s.countUnit u s.time
    let chain := bitOf (s.par .perfCtl u) (2 + j / 2)
    ((s.clearCounters u fun k => k == j || (chain && k / 2 == j / 2)).setPar .perfEvsel (8 * u + j) v, .done)
  else (s, .badParam)

def execPerfEvselWrite (t : Time) (u : Fin 16) (j : Fin 8) (v : Byte) (s : State) : Host.Outcome State Fault Refusal :=
  let s := s.advance t
  if onFDie .perfEvsel (8 * u + j) && !s.fdieUp then .next { s with wstatus := .failedFault }
  else
    let r := (s.valueTo .perfEvsel (8 * u + j) v.toNat).perfEvsel u.val j.val v.toNat
    .next { r.1 with wstatus := r.2 }

/-- A write to PERF_CTL: a change of chaining clears the counters concerned. What was counted until then stays counted. -/
def State.perfCtl (s : State) (u v : Nat) : State :=
  let s := s.countUnit u s.time
  let old := s.par .perfCtl u
  (s.clearCounters u fun j => bitOf old (2 + j / 2) != bitOf v (2 + j / 2)).setPar .perfCtl u v

def execPerfCtlWrite (t : Time) (u : Fin 16) (v : BitVec 6) (s : State) : Host.Outcome State Fault Refusal :=
  let s := s.advance t
  if onFDie .perfCtl u && !s.fdieUp then .next { s with wstatus := .failedFault }
  else .next { ((s.valueTo .perfCtl u v.toNat).perfCtl u.val v.toNat) with wstatus := .done }

/-- PERF_CLEAR. -/
def State.perfClear (s : State) (v : Nat) : State :=
  (List.range 16).foldl (fun s u => if bitOf v u then (s.countUnit u s.time).clearCounters u fun _ => true else s) s

def execPerfClearWrite (t : Time) (v : BitVec 16) (s : State) : Host.Outcome State Fault Refusal :=
  .next { ((s.advance t).perfClear v.toNat) with wstatus := .done }

/-! Sampling (R408, R410). -/

/-- A write of SAMPLE_CFG reloads the LFSR. -/
def State.sampleCfg (s : State) (v : Nat) : State × Status :=
  if Param.inRange false .sampleCfg 0 v then
    let s := (s.nodesTo s.time).setPar .sampleCfg 0 v
    ({ s with perf := { s.perf with lfsr := BitVec.ofNat 31 (s.par .sampleSeed) } }, .done)
  else (s, .badParam)

def execSampleCfgWrite (t : Time) (v : Byte) (s : State) : Host.Outcome State Fault Refusal :=
  let r := (s.advance t).sampleCfg v.toNat
  .next { r.1 with wstatus := r.2 }

/-- SAMPLE_READ (R410). -/
def State.sampleRead (s : State) (x : Ctx) (c : Cmd) (sg : Nat) : State :=
  let n := leAt c.payload 0 2
  if c.payload.length ≠ 2 || !within 1 4096 n then s.complete x c .badParam
  else
    let got := s.perf.samples.take n
    if s.sgLength x c sg < 32 * got.length then s.complete x c .badParam
    else if let some st := s.areaStop x c false then s.complete x c st
    else
      let s := (s.sgWrite x c got.flatten)
      ({ s with perf := { s.perf with samples := s.perf.samples.drop n } } : State).complete x c .done got.length

def execSampleRead (t : Time) (x : Ctx) (tag : BitVec 11) (sg : Nat) (s : State) : Host.Outcome State Fault Refusal :=
  .next (s.command t x tag 0xA002 fun s c => s.sampleRead x c sg)

end Sys2Proof.Machine
end

