-- ==== Sys2Proof/Machine/Ticks.lean ====
section
/-!
DEFINITION. The frame tick: what a tick does, numbered or idle, and the sources of ticks (chapter 1, R19, R24 to R33).
-/
namespace Sys2Proof.Machine

/-- TICK_STATE (Table 1.4). -/
def TickState.code : TickState → Nat
  | .internal => 0
  | .waitFirst => 1
  | .locked => 2
  | .freeRun => 3
  | .resync => 4
  | .hold => 5

/-! Streams at a tick (R281, R315, R316). -/

/-- A stop takes effect: the latest frame is the last one; its chain is sealed at once if that frame is out. -/
def State.stopNow (s : State) (e : Ctx × Nat) : State :=
  if s.stopDue e then
    let s := s.modStream e.1 e.2 fun m =>
      { m with started := false, stopping := false, draining := true, lastFrame := s.tick.frameNum }
    if s.streamOwes e.1 e.2 then s else s.sealNow e.1 e.2
  else s

/-- A start takes effect: a new chain begins, and a port leaves its uninitialised state; above 1.5 Gb/s it sends the initial deskew
sequence (Table 7.5). A stream that is started stays as it is (R281). -/
def State.startNow (s : State) (frame : Nat) (e : Ctx × Nat) : State :=
  if !s.startDue e then s
  else if (s.stream e.1 e.2).started then s.modStream e.1 e.2 fun m => { m with starting := false }
  else
    let s := s.modStream e.1 e.2 fun m =>
      { m with started := true, starting := false, draining := false, chain := some (Chain.start e.1 e.2 frame) }
    if e.2 = 0 then s
    else
      let s : State := { s with outs := s.outs.modify (e.2 - 1) fun p => { p with state := max 1 p.state } }
      if 150 < s.parField .outPortCfg (e.2 - 1) 18 9 then { s with out := s.out ++ [.deskew (if e.2 = 1 then 0 else 1)] } else s

/-- Stops and starts take effect, but for those of a halted core (R416). A start empties the histories and restarts gain control (R213,
R223). -/
def State.switchStreams (s : State) : State :=
  let s := s.allStreams.foldl State.stopNow s
  let fresh := s.allStreams.any fun e => s.startDue e && !(s.stream e.1 e.2).started
  let s := s.allStreams.foldl (fun s e => s.startNow s.tick.nextFrame e) s
  if fresh then
    { s with
      drift := s.drift.map fun d => { d with histEmpty := true }
      outs := s.outs.map fun p => { p with agc := none, lut := [], hist := [] } }
  else s

/-- STREAM_START completes at the first numbered tick that includes its streams (R281); one of a halted core waits (R416). -/
def State.startsComplete (s : State) (frame : Nat) : State :=
  s.completeWhere fun x c => match c.wait with
    | .streams _ marked => if !s.coreRuns x then none else some (if marked then .doneMarked else .done, frame % 2 ^ 32)
    | _ => none

/-! Ports and overdue deliveries (R221, R226). -/

/-- The next image of a port, closed and not yet sent or given up. -/
def State.portNext (s : State) (p : Nat) : List Frame :=
  s.frames.filter fun f => f.body.isSome && (f.ports.getD p none).isSome && !f.portsDone.getD p true
    && (s.outs.getD p .reset).sending != some f.num

/-- A port at a tick: it starts the image of the previous frame with its frame-start packet, or skips it while it still
transmits. A port whose format has become 0 sends nothing (R229). -/
def State.portTick (s : State) (p : Nat) : State :=
  (s.portNext p).foldl (fun s f =>
    if (s.outs.getD p .reset).sending.isNone && s.portFormat p ≠ 0 then
      ({ s with outs := s.outs.modify p fun o => { o with sending := some f.num, state := 2 } } : State).portSend p 0
        csiFrameStart (leBytes 2 (f.num % 65536))
    else
      let s := if s.portFormat p = 0 then s else (s.bump .outSkipCnt p).perfEvent 9 0x13
      let s := s.modFrame f.num fun f => { f with portsDone := f.portsDone.set p true }
      (s.sealPortEnd f.num p (f.ports.getD p none)).dropFrame f.num) s

/-- Deliveries of frame N - 2 and older stop at tick N; how many buffers are complete is a free value (log 2). -/
def State.overrun (s : State) (num : Nat) : State :=
  (s.frames.filter fun f => f.num + 2 ≤ num).foldl (fun s f =>
    (f.deliveries.filter fun d => !d.done).foldl (fun s d =>
      match f.body with
      | some body =>
        let v := s.takeFree 5
        v.2.deliver f body d (some (v.1 % max 1 f.bufs.length))
      | none => s) s) s

/-! A numbered frame opens. -/

/-- The lowest free bound set of a context takes the frame; with none, its record alone is delivered (R221, R280). -/
def State.takeSet (s : State) (x : Ctx) : State × Delivery :=
  match (List.range 16).find? fun n =>
      let b := (s.ctx x).sets.getD n .reset
      b.state == .free && !b.entries.isEmpty with
  | some n =>
    (s.modCtx x fun c => { c with sets := c.sets.modify n fun b => { b with state := .filling } },
      { ctx := x, set := some n, done := false })
  | none => (s.bump .outNobufCnt x, { ctx := x, set := none, done := false })

/-- What the tick fixes for a tile of the frame (R71, R131, R155, R158, R167, R173, Table 7.11). A hold frame repeats the UNCALIBRATED
flag of the last frame before it (R193). -/
def State.openTile (s : State) (free : Bool) (t : Tile) : FrameTile :=
  if !s.tileOn t then .idle
  else
    let d := s.dr t
    let k : FrameTile :=
      { FrameTile.idle with
        own := s.pair.mode != .paired || s.owns t
        enabled := true, avg := d.step == .average, lo := d.lo, hi := d.hi, w := d.w, tsNow := d.tsNow, conf := s.confOf t
        moving := d.moving }
    let k := k.flagIf (s.tile t).faulted flagDropped
    let k := k.flagIf (s.owns t && ((s.tile t).unsettled || !(s.tile t).allSettled)) flagUnsettled
    let k := (k.flagIf (s.staleNow t || s.holding) flagStale).flagIf (if s.holding then d.uncal else !s.calibrated t) flagUncal
    let k := (k.flagIf (s.calibrated t && d.clamp) flagClamp).flagIf d.degraded flagDegraded
    (k.flagIf (1 ≤ s.thm.stage) flagThrottled).flagIf free flagFreeRun

/-- Histories that are empty from this frame on (R213). -/
def State.emptyHistories (s : State) : State :=
  let due := allTiles.filter fun t => (s.dr t).histEmpty
  let s : State := { s with history := s.history.filter fun e => !due.any fun t => e.1 / 2 ^ 23 == t.val }
  due.foldl (fun s t => s.modDrift t fun d => { d with histEmpty := false }) s

/-- The copies that a tick makes: each viewport's palette (R224) and the active slot of the scene table (R207). -/
def State.copyTables (s : State) : State :=
  { s with
    scene := s.readMem (sceneAddr (s.par .radTblSel)) 1024
    outs := s.outs.mapIdx fun v p => { p with pal := s.readMem (paletteAddr + 1024 * s.par .outPalSel v) 1024 } }

/-- The frame of a numbered tick. -/
def State.openFrame (s : State) (num : Nat) (ts : Time) (prev : Option Time) (accepted free : Bool) : State :=
  let s := s.emptyHistories
  let s := allTiles.foldl (fun s t => s.modDrift t fun d => { d with staticCnt := s.staticDefects t d.lo d.hi d.w }) s
  let (s, ds) := (allCtx.filter fun x => (s.ctx x).mv.started).foldl (fun (e : State × List Delivery) x =>
    let r := e.1.takeSet x
    (r.1, e.2 ++ [r.2])) (s, [])
  let ports := (List.range 2).map fun p =>
    if (s.outs.getD p .reset).stream.started && s.portFormat p ≠ 0 then some (s.portOwner p) else none
  let fuse := (List.range 2).map (s.fusionLatch ts s.thm.stage)
  let paired := s.pair.mode == .paired
  let f : Frame :=
    { num, ts, period := if num = 0 then 0 else (prev.map fun t => (ts - t) / 10).getD 0, accepted, freeRun := free, d2 := s.tick.d2, paired
      lead := paired && s.pair.role == 0, hold := s.holding, tfStopped := 1 ≤ s.thm.stage, stage := s.thm.stage
      warn := s.thm.warn, tiles := allTiles.map (s.openTile free), deliveries := ds, ports
      portsDone := ports.map (·.isNone), rowsDone := [], stats := [], image := [], body := none, bufs := []
      fuse := fuse.map (·.1), images := [] }
  let count : Activation := match s.act with
    | .holding a c n => .holding a c (n + 1)
    | k => k
  let keep (d : Drift) (k : FrameTile) : Drift := if k.enabled then { d with uncal := k.has flagUncal } else d
  { s with
    frames := s.frames ++ [f], act := count, drift := (s.drift.zip f.tiles).map fun e => keep e.1 e.2
    aux := { s.aux with fuseState := fuse.map (·.2) }
    pair := { s.pair with mirrorAge := s.pair.mirrorAge.map fun a => min 255 (a + 1) } }

/-- The effective rates of the trained channels, which the spec does not derive from anything in State: free values; the
slow channels follow from them (R296, R299). -/
def State.memTick (s : State) : State :=
  if !s.clk.memTrained then s
  else
    let (s, rates) := (List.range 8).foldl (fun (e : State × List Nat) _ =>
      let v := e.1.takeFree 16
      (v.2, e.2 ++ [v.1])) (s, [])
    let load := s.takeFree 7
    let s := load.2
    let slowAt (m : Nat) : Bool :=
      (s.mem.chan.getD m (0, 0)).1 == 2
        || 100 * rates.getD m 0 < s.par .memSlowLim * medianOf (rates.eraseIdx m)
    let mask := BitVec.ofNat 8 (maskOf ((List.range 8).map slowAt))
    let old := s.mem.slow
    let s : State := { s with mem := { s.mem with rate := rates, slow := mask, load := load.1 } }
    if mask = old then s
    else s.devEvent 0x0A00 (leBytes 1 mask.toNat ++ leBytes 2 (rates.foldl min 0xFFFF))

/-! The tick. -/

/-- The tick's timestamp, and the measured period if this tick and the last were both accepted edges (R30, R31); the next lead
slot starts P_budget - 10 µs after the tick (R62). -/
def State.stampTick (s : State) (ts : Time) (accepted : Bool) : State :=
  let k := s.tick
  let measured := match k.last with
    | some l => if accepted && k.lastAccepted then some (ts - l) else k.measured
    | none => k.measured
  { s with tick := { k with measured, prev := k.last, last := some ts, lastAccepted := accepted, suppressed := none } }

/-- The PARTNER's side of the LEAD's commits: the values that the LEAD has decided to apply at this tick, ahead of the device's own
commits (R331; log 117). -/
def State.syncCommit (s : State) : State :=
  if s.isPartner then
    let due := s.pair.sync.filter fun e => e.2.1
    let s : State := { s with pair := { s.pair with sync := s.pair.sync.filter fun e => !e.2.1 } }
    due.foldl (fun s e => s.applyStaged e.2.2) s
  else s

/-- Changes that take effect at a tick: commits, activation, throttling, resume, streams (R28, R193, R281, R289, R364, R366). -/
def State.tickChanges (s : State) (ts : Time) (lead : Option Bool) : State :=
  let s := ((s.syncCommit.tickCommits ts lead).syncVerdicts).takeSource ts
  ((((s.activationTick ts).throttleTick ts).resumeTick ts).setDivider).switchStreams

/-- PAIR_JOIN, PAIR_HANDOVER and SOLE complete at a tick (R327, Table 11.5, R346). -/
def State.pairCompletes (s : State) : State :=
  s.completeWhere fun _ c => match c.wait with
    | .pairTick mode => some (.done, if mode = 3 then s.pair.own.toNat else s.pair.role + 256 * s.pair.own.toNat)
    | _ => none

/-- What a numbered tick starts: its number, the frame, snapshots, capture, and the start of read-out. -/
def State.numberedTick (s : State) (ts : Time) (prev : Option Time) (accepted free : Bool) : State :=
  let num := s.tick.nextFrame
  let s := (s.openFrame num ts prev accepted free).startsComplete num
  let s := ((s.captureTick num).tickSnapshot ts).sendVideo (.frameStart num ts)
  { s with
    seq := { s.seq with frame := some (num, ts) }
    tick := { s.tick with nextFrame := (num + 1) % 2 ^ 48 } }

/-- The tick message of a LEAD (R329): the frame number of the latest numbered tick, this one if it is numbered, TICK_TS, TICK_STATE, D,
and the starts of this tick: the grants for tiles of the PARTNER, and the LEAD's own (R337). before: the state ahead of the grants. -/
def State.sendTick (s before : State) (numbered : Bool) (ts : Time) : State :=
  if s.linked && s.pair.role = 0 then
    let grants := maskOf (allTiles.map fun t =>
      (s.peerCycle t && !before.peerCycle t) || ((s.dr t).cycle.isSome && (before.dr t).cycle.isNone))
    s.pairSend .tick
      (leBytes 6 s.tick.frameNum ++ leBytes 1 (if numbered then 1 else 0) ++ leBytes 8 ts ++ leBytes 1 s.tick.state.code
        ++ leBytes 1 (if s.tick.d2 then 1 else 0) ++ leBytes 1 grants)
  else s

/-- The drift records of a tile as a mirror carries them: a snapshot (0) or a new map with the candidate list (1) (Table 11.8). -/
def State.sendMirror (s : State) (kind : Nat) (t : Tile) : State :=
  s.pairSend .mirror
    (leBytes 1 kind ++ leBytes 1 t ++ s.readMem (s.dprAddr t 0 0) (4 * roundUp 128 (s.par .actCols t) * s.par .actRows t)
      ++ if kind = 1 then s.readMem (candAddr t) (16 + 4 * (s.dr t).candCnt) else [])

/-- The new map of a tile goes to the peer, and its mirror is fresh. -/
def State.mirrorTile (s : State) (t : Tile) : State :=
  let s := s.sendMirror 1 t
  { s with pair := { s.pair with mirrorAge := s.pair.mirrorAge.set t.val 0 } }

/-- The mirror of a numbered tick (R336, Table 11.8): a snapshot of every owned tile at frame numbers that are multiples of 16, and
the new map of a tile whose step 4 has ended at this tick. before: the state ahead of the flysheet's part of the tick. -/
def State.mirrorTick (s before : State) (num : Nat) : State :=
  if s.pair.mode == .paired then
    (s.enabled.filter s.owns).foldl (fun s t =>
      let s := if num % 16 = 0 then s.sendMirror 0 t else s
      if (s.dr t).lastRefTime ≠ (before.dr t).lastRefTime then s.mirrorTile t else s) s
  else s

/-- A tick with timestamp ts (R24). lead: what the LEAD's tick message says of the tick, numbered or idle, and its start
grants (R329, R337). -/
def State.frameTick (s : State) (ts : Time) (accepted free : Bool) (lead : Option (Bool × Nat)) : State :=
  let s := (((s.countBias ts).endReading.stampTick ts accepted).tickChanges ts (lead.map (·.1))).copyTables
  let numbered := (lead.map (·.1)).getD s.anyStream
  let s : State := if numbered then { s with tick := { s.tick with frameNum := s.tick.nextFrame } } else s
  let s := (List.range 2).foldl State.portTick s
  let s := if numbered then s.overrun s.tick.nextFrame else s
  let before := s
  let s := ((s.flyTick numbered ts (lead.map (·.2))).sendTick before numbered ts).memTick
  let s := if numbered then s.mirrorTick before s.tick.nextFrame else s
  let s := (if numbered then s.replayTick else s).pairCompletes
  let s := s.dropSampling
  let port (k : TileSt) : TileSt := { k with dig := { k.dig with seen := false, dropped := false } }
  let s : State :=
    { s with
      tiles := s.tiles.map port, pair := { s.pair with held := 0 }
      seq := { s.seq with
        frame := none, slot := 0, cdie := none, pointers := 0, shift := if lead.isSome then 2000 else 0
        lead := some (ts + (if lead.isSome then 2000 else 0) + s.edgeDelay + s.pBudget - 10000) } }
  if numbered then s.numberedTick ts s.tick.prev accepted free else s

/-! Sources of ticks (R26 to R32, Table 1.3). -/

/-- A tick of the device's own source. While D is 2, one of two internal ticks, or of two accepted edges in LOCKED, is
dropped; the edge that enters LOCKED from another state is a tick (Table 1.3), and a free-run tick is neither (R27, log 18). -/
def State.sourceTick (s : State) (ts : Time) (accepted free divides : Bool) : State :=
  if s.tick.d2 && s.tick.skip && divides then
    { s with tick := { s.tick with skip := false, suppressed := if accepted then some ts else s.tick.suppressed } }
  else
    let s := if s.ownTicks then s.frameTick ts accepted free none else s
    { s with tick := { s.tick with skip := s.tick.d2 && !free } }

/-- INTERNAL_TICK (R26, R28): the tick carries its scheduled time. -/
def execInternalTick (t : Time) (s : State) : Host.Outcome State Fault Refusal :=
  let s := s.advance t
  if s.tick.state = .internal && s.tick.running && s.tick.next ≤ s.time then
    let ts := s.tick.next
    let s := s.sourceTick ts false false true
    if s.tick.state = .internal then
      .next { s with tick := { s.tick with next := ts + 10 * s.par .tickPeriod } }
    else .next s
  else .next s

/-- P_exp in ns (R31). -/
def State.expected (s : State) : Nat := s.tick.measured.getD (10 * s.par .fsyncNomPeriod)

/-- An edge comes too early after the previous tick (R30). -/
def State.tooEarly (s : State) (ts : Time) : Bool :=
  match s.tick.last with
  | some l => ts < l + 10 * s.par .fsyncMinPeriod
  | none => false

/-- Consecutive accepted intervals: one more if the edge before was accepted too, with no other tick between (R353). -/
def State.countInterval (s : State) : State :=
  let run := s.tick.lastAccepted || s.tick.suppressed.isSome
  { s with tick := { s.tick with fsCount := if run then min 16 (s.tick.fsCount + 1) else 0 } }

/-- A detected edge with timestamp ts (R30 to R32). While the internal source is selected it is ignored and not counted
(log 100). -/
def State.fsyncEdge (s : State) (ts : Time) : State :=
  if s.tick.state = .internal || !s.tick.running then s
  else if s.tooEarly ts then
    let s := s.bump .fsyncEarlyCnt
    if s.tick.state = .freeRun then { s with tick := { s.tick with state := .resync } } else s
  else
    let divides := s.tick.state == .locked
    (({ s with tick := { s.tick with state := .locked } } : State).countInterval).sourceTick ts true false divides

/-- One sample of FSYNC at an instant of the 100 MHz grid (R29): a third consecutive active sample is an edge, stamped with the
first of the three, once three consecutive inactive samples have been seen since the last edge (log 100). -/
def State.fsyncSample (s : State) (at_ : Time) (level : Bool) : State :=
  let s := s.advance at_
  let k := s.tick
  let active := level != (s.par .fsyncPol == 1)
  let run := if level = k.fsLevel then min 3 (k.fsRun + 1) else 1
  let armed := k.fsArmed || (!active && run = 3)
  let edge := active && run = 3 && armed
  let s : State := { s with tick := { k with fsLevel := level, fsRun := run, fsArmed := armed && !edge } }
  if edge then s.fsyncEdge (at_ - 20) else s

/-- FSYNC_EDGE (R29 to R32): the samples of the input up to t, 10 ns apart, oldest first. -/
def execFsyncEdge (t : Time) (samples : List Bool) (s : State) : Host.Outcome State Fault Refusal :=
  let n := samples.length
  .next (samples.zipIdx.foldl (fun s e => s.fsyncSample (t - 10 * (n - 1 - e.2)) e.1) (if samples.isEmpty then s.advance t else s))

/-- The deadline of the present state for an accepted edge, if it has one (Table 1.3). An accepted edge that D = 2 suppressed
moves it, as the last tick does (log 18). -/
def State.deadline (s : State) : Option Time :=
  let from_ : Option Time := match s.tick.state with
    | .waitFirst => some s.tick.entered
    | .locked | .resync => if s.tick.suppressed.isSome then s.tick.suppressed else s.tick.last
    | _ => none
  from_.map (· + 2 * s.expected)

/-- Entry to FREE_RUN with a tick stamped at the deadline, or to HOLD (Table 1.3). -/
def State.missedTick (s : State) (at_ : Time) (hold : Bool) : State :=
  if hold then { s with tick := { s.tick with state := .hold } }
  else
    let s : State := { s with tick := { s.tick with state := .freeRun, next := at_ + s.expected } }
    s.sourceTick at_ false true false

/-- FSYNC_DEADLINE_MISSED (R32): 20 ns after the deadline. Only entry from WAIT_FIRST or LOCKED raises TICK_MISSING. -/
def execFsyncDeadlineMissed (t : Time) (s : State) : Host.Outcome State Fault Refusal :=
  let s := s.advance t
  match s.deadline with
  | none => .next s
  | some at_ =>
    if !s.tick.running || s.time < at_ + 20 then .next s
    else if s.tick.state = .resync then .next (s.missedTick at_ false)
    else
      let hold := s.par .fsyncLossPolicy == 1
      let s := (s.missedTick at_ hold).bump .tickMissingCnt
      .next (s.fdieEvent 0x0200 (leBytes 4 (if hold then 5 else 3) ++ leBytes 4 (s.expected / 10)))

/-- FREE_RUN_TICK (R32, R33). -/
def execFreeRunTick (t : Time) (s : State) : Host.Outcome State Fault Refusal :=
  let s := s.advance t
  if s.tick.state = .freeRun && s.tick.running && s.tick.next ≤ s.time then
    let ts := s.tick.next
    let s := s.sourceTick ts false true false
    if s.tick.state = .freeRun then .next { s with tick := { s.tick with next := ts + s.expected } } else .next s
  else .next s

/-- The C-die takes the frame number and the timestamp of a frame start, whenever the message arrives (R19). -/
def State.frameStarts (s : State) (frame : Nat) (ts : Time) : State :=
  if s.seq.frame == some (frame, ts) then { s with seq := { s.seq with cdie := some (frame, ts) } } else s

/-- FRAME_START_MESSAGE (R18, R19): it crosses the guyline while the lanes are up. -/
def execFrameStartMessage (t : Time) (frame : Nat) (ts : Time) (s : State) : Host.Outcome State Fault Refusal :=
  let s := s.advance t
  .next (if s.linkUp .fc then s.frameStarts frame ts else s)

end Sys2Proof.Machine
end

