-- ==== Sys2Proof/Machine/Trust.lean ====
section
/-!
DEFINITION. Trust: attestation, owner provisioning, host authentication and firmware update (chapter 10, R305 to R318), and
the end of an NV transaction, on which a confirm and a transfer wait.
-/
namespace Sys2Proof.Machine

def State.modSec (s : State) (f : Sec → Sec) : State := { s with sec := f s.sec }
def State.modOtp (s : State) (f : Otp → Otp) : State := { s with sec := { s.sec with otp := f s.sec.otp } }

/-! Firmware slots (R310, R317). -/

/-- Slot states as they are committed. -/
def State.fwState (s : State) (slot : Nat) : Nat := leAt (s.nvLook fwPage).data slot 1

def State.trialBoots (s : State) : Nat := leAt (s.nvLook fwPage).data 2 1

/-- An image as it stands in its slot (Table 10.12). -/
def State.image (s : State) (slot : Nat) : Bytes := s.sec.flash.getD slot []

def imageVersion (img : Bytes) : Nat := leAt img 4 4
def imageArb (img : Bytes) : Nat := leAt img 8 2

/-- VERSION of a slot, 0 if it is EMPTY (Table 10.15). -/
def State.slotVersion (s : State) (slot : Nat) : Nat := if s.fwState slot = 0 then 0 else imageVersion (s.image slot)

/-- Version of the running image; 0 in basecamp. -/
def State.fwVersion (s : State) : Nat := (s.sec.runningSlot.map fun k => imageVersion (s.image k)).getD 0

/-- A trial runs: the running slot's state is TRIAL, and no FW_CONFIRM has committed another one (R317, R318). -/
def State.inTrial (s : State) : Bool :=
  match s.sec.runningSlot with
  | some k => s.fwState k == 4
  | none => false

/-- The slot that the FW commands act on: the one not running; in basecamp B if A is ACTIVE or VERIFIED, else A (DESIGN
CHOICE, log 19). -/
def State.inactiveSlot (s : State) : Nat :=
  match s.sec.runningSlot with
  | some k => 1 - k
  | none => if s.fwState 0 == 5 || s.fwState 0 == 2 then 1 else 0

/-- A signature by an active owner key. -/
def State.ownerSigned (s : State) (msg sig : Bytes) : Bool :=
  s.sec.otp.slots.any fun k => k.1 == 1 && Config.ecdsaVerify k.2 (sha msg) sig

/-- Header checks and DIGEST of an image (R310 step 6). -/
def imageWhole (img : Bytes) : Bool :=
  let len := leAt img 12 4
  decide (4096 ≤ img.length) && sliceB 0 4 img == ascii "KFW1" && decide (imageArb img ≤ 2048) && decide (len ≤ 33550336)
    && leAt img 10 2 == 0 && (sliceB 16 16 img).all (· == 0) && (sliceB 272 3824 img).all (· == 0)
    && decide (4096 + len ≤ img.length) && sliceB 32 48 img == sha (sliceB 4096 len img)

/-- The checks of R310 step 6: none if the image passes. -/
def State.imageRefusal (s : State) (img : Bytes) : Option Status :=
  if !imageWhole img then some .imageBad
  else if !Config.ecdsaVerify Config.firmwareRoot (sha (img.take 80)) (sliceB 80 96 img) then some .authFail
  else if s.parBit .secFwCosign 0 0 && !s.ownerSigned (img.take 80) (sliceB 176 96 img) then some .authFail
  else if imageArb img < s.sec.otp.arb then some .rollbackRefused
  else none

/-- The signatures that the checks of an image come to: the firmware root's, and an owner's where one is asked for. -/
def State.imageSignatures (s : State) (img : Bytes) : Nat :=
  if !imageWhole img then 0
  else if s.parBit .secFwCosign 0 0 && Config.ecdsaVerify Config.firmwareRoot (sha (img.take 80)) (sliceB 80 96 img) then 2 else 1

/-- The firmware right: an OWNER, or a valid grant with it (R314, R317). -/
def State.fwRight (s : State) (x : Ctx) : Bool := s.roleOf x == 1 || s.grantRight x 0

/-- A part of a download crosses the guyline (R43) and joins what has come of the image, and the command goes on by its flags: FIRST
commits EMPTY, LAST alone commits UNVERIFIED, any other part is done. -/
def State.downloadPart (s : State) (x : Ctx) (c : Cmd) (data : Bytes) : State :=
  let flags := leAt c.payload 8 4
  let last := bitOf flags 1
  let slot := s.inactiveSlot
  let off := leAt c.payload 0 4
  let s := (s.sendAcross .cf (.firmware slot off (data.drop off))).modSec fun k => { k with dl := if last then none else some data }
  if bitOf flags 0 then s.persistAs x c (.download 1 (if last then data else []) none) [(fwPage, slot, [0])] true
  else if last then s.persistAs x c (.download 2 data none) [(fwPage, slot, [1])] true
  else s.complete x c .done data.length

/-- FW_DOWNLOAD (R317). The slot is erased once EMPTY is committed, and the image is laid into it with its last part (log 20). -/
def State.fwDownload (s : State) (x : Ctx) (c : Cmd) (area : Bytes) : State :=
  let off := leAt c.payload 0 4
  let len := leAt c.payload 4 4
  let flags := leAt c.payload 8 4
  let have_ : Option Bytes := if bitOf flags 0 then some [] else s.sec.dl
  if !s.fwRight x then s.complete x c .notPermitted
  else if !s.nvUp then s.complete x c .failedFault
  else
    let s := s.nvFetchAll [fwPage]
    if s.inTrial then s.complete x c .busy
    else match have_ with
    | none => s.complete x c .badParam
    | some old =>
      if c.payload.length ≠ 12 || 4 ≤ flags || off ≠ old.length || len % 4096 ≠ 0 || 0x100000 < len || 0x2000000 < off + len
          || s.sgLength x c area.length < len then s.complete x c .badParam
      else if let some st := s.areaStop x c true then s.complete x c st
      else if flags ≠ 0 && s.nv.spares.length < 64 then s.complete x c .nvFull
      else s.downloadPart x c (old ++ padTo len (s.sgRead x c area))

def execFwDownload (t : Time) (x : Ctx) (tag : BitVec 11) (area : Bytes) (s : State) : Host.Outcome State Fault Refusal :=
  .next (s.command t x tag 0x8001 fun s c => s.fwDownload x c area)

/-- FW_VERIFY (R317). It carries no payload (Table 9.11). -/
def State.fwVerify (s : State) (x : Ctx) (c : Cmd) : State :=
  let slot := s.inactiveSlot
  if !s.fwRight x then s.complete x c .notPermitted
  else if !s.nvUp then s.complete x c .failedFault
  else
    let s := s.nvFetchAll [fwPage]
    if s.inTrial then s.complete x c .busy
    else if !c.payload.isEmpty then s.complete x c .badParam
    else if s.fwState slot = 0 then s.complete x c .imageBad
    else
      let s := s.verified (s.imageSignatures (s.image slot))
      match s.imageRefusal (s.image slot) with
      | some st => s.complete x c st
      | none => s.persist x c [(fwPage, slot, [2])] true (some (imageVersion (s.image slot)))

def execFwVerify (t : Time) (x : Ctx) (tag : BitVec 11) (s : State) : Host.Outcome State Fault Refusal :=
  .next (s.command t x tag 0x8002 fun s c => s.fwVerify x c)

/-- FW_ACTIVATE (R317). With RESTART the reset follows 10 ms after the reply of its commit (FW_RESTART_DELAY). -/
def State.fwActivate (s : State) (x : Ctx) (c : Cmd) : State :=
  let slot := s.inactiveSlot
  let word := leAt c.payload 0 4
  if !s.fwRight x then s.complete x c .notPermitted
  else if !s.nvUp then s.complete x c .failedFault
  else
    let s := s.nvFetchAll [fwPage]
    if s.inTrial then s.complete x c .busy
    else if c.payload.length ≠ 4 || 2 ≤ word || s.fwState slot ≠ 2 then s.complete x c .badParam
    else s.persist x c [(fwPage, slot, [3])] true (some 0)

def execFwActivate (t : Time) (x : Ctx) (tag : BitVec 11) (s : State) : Host.Outcome State Fault Refusal :=
  .next (s.command t x tag 0x8003 fun s c => s.fwActivate x c)

/-- FW_CONFIRM (R317): one transaction makes the trial slot ACTIVE and the other VERIFIED, with the confirm record of the new
ARB; the counter is burned after it. It carries no payload (Table 9.11). -/
def State.fwConfirm (s : State) (x : Ctx) (c : Cmd) : State :=
  if !s.fwRight x then s.complete x c .notPermitted
  else if !s.nvUp then s.complete x c .failedFault
  else if !c.payload.isEmpty then s.complete x c .badParam
  else
    let s := s.nvFetchAll [fwPage]
    match s.sec.runningSlot with
    | none => s.complete x c .doneMarked
    | some k =>
      if s.fwState k ≠ 4 then s.complete x c .doneMarked
      else
        s.persist x c
          [(fwPage, k, [5]), (fwPage, 1 - k, [2]), (fwPage, 2, [0, 1]), (fwPage, 4, leBytes 2 (imageArb (s.image k)))] true (some 0)

def execFwConfirm (t : Time) (x : Ctx) (tag : BitVec 11) (s : State) : Host.Outcome State Fault Refusal :=
  .next (s.command t x tag 0x8004 fun s c => s.fwConfirm x c)

/-- After a confirm: a VERIFIED slot whose ARB is below the counter becomes REJECTED, and the record is cleared (R317). -/
def State.confirmUps (s : State) : List (Nat × Nat × Bytes) :=
  (((List.range 2).filter fun k => s.fwState k == 2 && imageArb (s.image k) < s.sec.otp.arb).map fun k => (fwPage, k, [6]))
    ++ [(fwPage, 3, [0])]

/-- The counter is burned up to the ARB of a committed confirm record; what the NV store has to take then (R317, R310 step 4). -/
def State.burned (s : State) : Option (State × List (Nat × Nat × Bytes)) :=
  let p := (s.nvLook fwPage).data
  if leAt p 3 1 = 1 then
    let s := s.modOtp fun o => { o with arb := max o.arb (leAt p 4 2) }
    some (s, s.confirmUps)
  else none

/-- A committed confirm record is carried out. -/
def State.burnConfirm (s : State) : State :=
  match (s.nvCheck fwPage).burned with
  | some (s, ups) => if s.nv.spares.length < 64 then s else s.nvSubmit { ups, now := false, owner := none }
  | none => s.nvCheck fwPage

/-! Attestation (R307) and the info word (Table 9.13). -/

def State.infoWord (s : State) (x : Ctx) : Nat :=
  s.sec.otp.revision + 256 * s.sec.otp.grade + 4096 * (s.sec.runningSlot.map (· + 1)).getD 0
    + 65536 * maskOf [s.links.gln == .down, s.isAuth x]

/-- Owner slot states, 2 bits per slot. -/
def State.ownerSlots (s : State) : Nat := (s.sec.otp.slots.zipIdx.map fun e => e.1.1 * 4 ^ e.2).sum

/-- The factory certificate, in NV pages 0 to 7 behind its length of 2 bytes (log 5); none while the NV store cannot be reached
(R311). -/
def State.certificate (s : State) : Bytes :=
  if !s.nvUp then [] else
  let area := (List.range 8).flatMap fun p => (s.nvLook p).data
  sliceB 2 (min 32766 (leAt area 0 2)) area

/-- The record of Table 10.7. -/
def State.attestRecord (s : State) (x : Ctx) (nonce : Bytes) : Bytes × State :=
  let cert := s.certificate
  let body := devId ++ leBytes 4 (s.infoWord x) ++ leBytes 4 s.fwVersion ++ leBytes 2 s.sec.otp.arb
    ++ leBytes 1 (if s.sec.otp.owned then 1 else 0) ++ leBytes 1 s.ownerSlots
    ++ (match s.bundle with
      | some b => hdrId b.hdr ++ leBytes 4 (hdrVersion b.hdr)
      | none => List.replicate 20 0)
    ++ padTo 48 nonce ++ padTo 97 calPublic ++ [0, 0, 0] ++ leBytes 2 cert.length ++ [0, 0]
  let r := s.signIdentity (sha (ascii "KAT1" ++ body))
  (body ++ r.1 ++ cert, r.2)

/-- ATTEST (R307). -/
def State.attest (s : State) (x : Ctx) (c : Cmd) (sg : Nat) : State :=
  if c.payload.length ≠ 48 then s.complete x c .badParam
  else
    let r := (if s.nvUp then s.nvFetchAll (List.range 8) else s).attestRecord x c.payload
    r.2.writeRecord x c sg r.1 r.1.length

def execAttest (t : Time) (x : Ctx) (tag : BitVec 11) (sg : Nat) (s : State) : Host.Outcome State Fault Refusal :=
  .next (s.command t x tag 0x7010 fun s c => s.attest x c sg)

/-! Owner provisioning (R308, R309). -/

/-- NV page and offset of a context's authentication key (log 5). -/
def keyPlace (x : Nat) : Nat × Nat := (12 + x / 2, 128 * (x % 2))

/-- The lowest unused owner slot. -/
def State.unusedSlot (s : State) : Option Nat := (List.range 4).find? fun i => (s.sec.otp.slots.getD i (0, [])).1 == 0

def State.putKey (s : State) (slot : Nat) (key : Bytes) : State :=
  s.modOtp fun o => { o with slots := o.slots.set slot (1, key), owned := true }

/-- The OTP steps of a transfer (R309, items 2 to 4). -/
def State.transferOtp (s : State) (slot : Nat) (key : Bytes) : State :=
  let s := s.modOtp fun o =>
    { o with
      slots := o.slots.map fun k => if k.1 = 1 then (2, k.2) else k, epoch := min 512 (o.epoch + 1), transfer := some (key, true) }
  s.putKey slot key

/-- The lowest unused slot takes the key of the transfer record, once. -/
def State.transferBurn (s : State) : State :=
  match s.sec.otp.transfer, s.unusedSlot with
  | some (key, false), some slot => s.transferOtp slot key
  | _, _ => s

/-- The NV steps of a transfer (R309, items 5 and 6): the floor, the context keys, the bindings and the passwords; the copy of the
transfer record goes with them. -/
def transferPages : List (Nat × Nat × Bytes) :=
  (8, 36, List.replicate 4 0) :: (10, 0, List.replicate 48 0) :: (11, 0, State.reset.bindingPage)
    :: ((List.range 4).map fun i => (12 + i, 0, List.replicate 256 0)) ++ (List.range 8).map fun r => (240 + r, 0, List.replicate 32 0)

/-- The transfer ends: the record is cleared, the bindings of R255 are in force, and no context is authenticated. -/
def State.transferDone (s : State) : State :=
  let s := s.modOtp fun o => { o with transfer := none }
  let old := s
  let def_ (s : State) (x : Ctx) : State :=
    { s with regs := keyDel (keyDel (keyDel s.regs (Param.hostCtxBind.id x)) (Param.hostTagBase.id x)) (Param.hostTagCount.id x) }
  let s := allCtx.foldl def_ s
  let s := allCtx.foldl (fun s (x : Ctx) =>
    if s.par .hostCtxBind x = old.par .hostCtxBind x then s else s.rebind x (s.bindingOf x == 0)) s
  { s with ctxs := s.ctxs.map fun k => { k with auth := none } }

/-- The condition of Table 10.8 on the OTP, by OP and ARG: the status where it does not hold. -/
def State.otpRefusal (s : State) (op arg : Nat) : Option Status :=
  let active (i : Nat) : Bool := (s.sec.otp.slots.getD i (0, [])).1 == 1
  match op with
  | 1 => if s.sec.otp.owned then some .notPermitted else none
  | 2 | 5 => if s.unusedSlot.isNone then some .locked else none
  | 3 => if arg < 4 && active arg && (List.range 4).any (fun i => i != arg && active i) then none else some .badParam
  | 4 => if arg < 8 then none else some .badParam
  | _ => if 512 ≤ s.sec.otp.epoch then some .locked else none

/-- OWNER_PROVISION's status when it is refused (R308, Table 10.8). -/
def State.ownerRefusal (s : State) (x : Ctx) (c : Cmd) : Option Status :=
  let op := leAt c.payload 0 1
  let arg := leAt c.payload 1 1
  let key := sliceB 4 97 c.payload
  let proof := sliceB 104 96 c.payload
  let keyed := [1, 2, 4, 5].contains op
  let t1 := ((s.ctx x).auth.map (·.t1)).getD []
  if op ≠ 1 && (s.ctx x).auth.any (·.mode == 3) then some .notPermitted
  else if c.payload.length ≠ 200 || leAt c.payload 2 2 ≠ 0 || leAt c.payload 101 3 ≠ 0 || op = 0 || 6 < op
      || (op ≠ 5 && proof.any (· != 0)) || (keyed && !Config.p384Valid key) then some .badParam
  else (s.otpRefusal op arg).orElse fun _ =>
    if op = 5 && !Config.ecdsaVerify key (sha (ascii "KOT1" ++ devId ++ padTo 48 t1)) proof then some .authFail else none

/-- What an OWNER_PROVISION does in the OTP once its last transaction is committed (Table 10.8, R309). -/
def State.provisionEffect (s : State) (c : Cmd) : State :=
  let op := leAt c.payload 0 1
  let arg := leAt c.payload 1 1
  let key := sliceB 4 97 c.payload
  let note (s : State) (k : Nat) : State := s.devEvent 0x0A06 (leBytes 1 op ++ leBytes 1 k)
  match op, s.unusedSlot with
  | 1, _ => note (s.putKey 0 key) 0
  | 2, some slot => note (s.putKey slot key) slot
  | 3, _ => note (s.modOtp fun o => { o with slots := o.slots.modify arg fun k => (2, k.2) }) arg
  | 4, _ => note s arg
  | 5, _ => (note s ((s.sec.otp.slots.findIdx? fun k => k == (1, key)).getD 0)).transferDone
  | 6, _ => note (s.modOtp fun o => { o with epoch := min 512 (o.epoch + 1) }) 0
  | _, _ => s

/-- The OWNER_PROVISION commands whose effect a transaction holds. -/
def State.provisions (s : State) (txn : Nat) : List (Ctx × Cmd) :=
  allCtx.flatMap fun x => ((s.ctx x).inflight.filter fun c =>
    c.opcode == 0x7020 && (match c.wait with | .nv n _ | .transfer 2 (some n) => n == txn | _ => false)).map fun c => (x, c)

/-- The condition of Table 10.8 as a committed command finds it: another one may have changed the OTP since it started. A transfer has
taken its slot. -/
def State.provisionRefusal (s : State) (c : Cmd) : Option Status :=
  let op := leAt c.payload 0 1
  if op = 5 then none else s.otpRefusal op (leAt c.payload 1 1)

/-- Those that others have overtaken, with their status. -/
def State.overtaken (s : State) (due : List (Ctx × Cmd)) : List (Ctx × Cmd × Status) :=
  (due.foldl (fun (a : State × List (Ctx × Cmd × Status)) e =>
    match a.1.provisionRefusal e.2 with
    | some st => (a.1, a.2 ++ [(e.1, e.2, st)])
    | none => (a.1.provisionEffect e.2, a.2)) (s, [])).2

/-- The effects of provisioning commands, of each that its condition still allows. -/
def State.provisioned (s : State) (due : List (Ctx × Cmd)) : State :=
  due.foldl (fun s e => if (s.provisionRefusal e.2).isSome then s else s.provisionEffect e.2) s

/-- The commands that wait for a transaction in a given way. -/
def State.waitingFor (s : State) (p : Wait → Bool) : List (Ctx × Cmd) :=
  allCtx.flatMap fun x => ((s.ctx x).inflight.filter fun c => p c.wait).map fun c => (x, c)

/-- The transaction that holds the record of transfers ends: steps 2 to 4 in the OTP and then the NV steps (R309); where the
transaction failed, or no slot is left by now, the record is taken back. -/
def State.transferGoesOn (s : State) (due : List (Ctx × Cmd)) (ok : Bool) : State :=
  due.foldl (fun s e =>
    if !ok then s.modOtp fun o => { o with transfer := none }
    else if s.unusedSlot.isNone then (s.modOtp fun o => { o with transfer := none }).complete e.1 e.2 .locked
    else s.transferBurn.persistAs e.1 e.2 (.transfer 2 none) transferPages true) s

/-- OWNER_PROVISION (R308, R309): every operation takes effect with its transaction. A transfer journals the new key's hash, in the
OTP record and in page 10 of the NV store, before its steps. -/
def State.ownerProvision (s : State) (x : Ctx) (c : Cmd) : State :=
  let op := leAt c.payload 0 1
  let arg := leAt c.payload 1 1
  let key := sliceB 4 97 c.payload
  if !s.nvUp then s.complete x c .failedFault
  else
    let s := if op = 5 && ((s.ownerRefusal x c).all (· == .authFail)) then s.verified 1 else s
    match s.ownerRefusal x c with
    | some st => s.complete x c st
    | none =>
      match op with
      | 4 => s.persist x c [((keyPlace arg).1, (keyPlace arg).2, key)] true (some 0)
      | 5 => s.persistAs x c (.transfer 1 none) [(10, 0, padTo 48 (sha key))] true (.transfer key)
      | _ => s.persist x c [] true (some 0)

def execOwnerProvision (t : Time) (x : Ctx) (tag : BitVec 11) (s : State) : Host.Outcome State Fault Refusal :=
  .next (s.command t x tag 0x7020 fun s c => s.ownerProvision x c)

/-! The end of a transaction. -/

/-- The transaction of EMPTY ends: the slot is erased, and the command is done, or commits UNVERIFIED if its part was the last one;
where the transaction failed no offset is expected (R317). -/
def State.downloadGoesOn (s : State) (due : List (Ctx × Cmd)) (ok : Bool) : State :=
  due.foldl (fun s e =>
    let slot := s.inactiveSlot
    if !ok then s.modSec fun k => { k with dl := none }
    else
      let s := s.modSec fun k => { k with flash := k.flash.set slot [] }
      match e.2.wait with
      | .download _ data _ =>
        if bitOf (leAt e.2.payload 8 4) 1 then s.persistAs e.1 e.2 (.download 2 data none) [(fwPage, slot, [1])] true
        else s.complete e.1 e.2 .done (leAt e.2.payload 4 4)
      | _ => s) s

/-- The image whose last part is committed is laid into its slot. -/
def State.layImage (s : State) (due : List (Ctx × Cmd)) : State :=
  due.foldl (fun s e => match e.2.wait with
    | .download _ data _ => s.modSec fun k => { k with flash := k.flash.set s.inactiveSlot data }
    | _ => s) s

/-- The last parts of downloads that a transaction holds. -/
def State.imagesOf (s : State) (txn : Nat) : List (Ctx × Cmd) :=
  s.waitingFor fun w => match w with | .download 2 _ (some k) => k == txn | _ => false

/-- The reply of an FW_ACTIVATE with RESTART starts the 10 ms. -/
def State.restartDelay (s : State) (due : List (Ctx × Cmd)) : State :=
  if due.any fun e => bitOf (leAt e.2.payload 0 4) 0 then s.modSec fun k => { k with restartAt := some (s.time + 10000000) } else s

/-- The running transaction ends (R379, R382): the commands that it held complete, provisioning takes effect, and a confirm, a transfer
and a download go on from there, as does what waited for them. -/
def State.transactionEnds (s : State) (n retired recordFails : Nat) : State :=
  let ok := decide (retired < 5) && decide (recordFails < 2)
  let due := if ok then s.provisions n else []
  let held (p : Wait → Bool) : List (Ctx × Cmd) := s.waitingFor p
  let records := held fun w => w == .transfer 1 (some n)
  let empties := held fun w => match w with | .download 1 _ (some k) => k == n | _ => false
  let images := if ok then s.imagesOf n else []
  let firmware := s.nv.buffer.any fun e => e.1 == fwPage
  let restarts := if ok then (held fun w => match w with | .nv k _ => k == n | _ => false).filter fun e => e.2.opcode == 0x8003 else []
  let a := ((s.overtaken due).foldl (fun s e => s.complete e.1 e.2.1 e.2.2) s).nvEnd n retired recordFails
  let a := ((a.layImage images).restartDelay restarts).provisioned due
  let a := (a.transferGoesOn records ok).downloadGoesOn empties ok
  (if firmware then a.burnConfirm else a).nvSettle

/-! Authentication (R312 to R314). -/

/-- MODE that a role authenticates with (R312); a code without a role has none. -/
def State.modeFor (s : State) (x : Ctx) : Option Nat :=
  match s.roleOf x with
  | 1 => some (if s.sec.otp.owned then 1 else 3)
  | 2 | 3 | 4 => some 0
  | 5 => some 2
  | _ => none

/-- AUTH_CHALLENGE (R312, R313). In basecamp with the guyline down only owner keys authenticate (R311). -/
def State.authChallenge (s : State) (x : Ctx) (c : Cmd) (sg : Nat) : State :=
  let hn := sliceB 0 32 c.payload
  let he := sliceB 32 97 c.payload
  let mode := leAt c.payload 129 1
  let slot := leAt c.payload 130 1
  let locked := match (s.ctx x).lockUntil with
    | some u => decide (s.time < u)
    | none => false
  if c.payload.length ≠ 132 || leAt c.payload 131 1 ≠ 0 || !Config.p384Valid he then s.complete x c .badParam
  else if s.modeFor x ≠ some mode || (mode = 1 && (3 < slot || (s.sec.otp.slots.getD slot (0, [])).1 ≠ 1))
      || (s.boot == .basecamp && !s.nvUp && mode ≠ 1) then s.complete x c .notPermitted
  else if locked then s.complete x c .locked
  else if s.sgLength x c sg < 228 then s.complete x c .badParam
  else if let some st := s.areaStop x c false then s.complete x c st
  else
    let draw := s.sec.draws
    let dn := padTo 32 (Config.random draw 32)
    let de := padTo 97 (Config.p384Public (Config.random (draw + 1) 48))
    let s := s.modSec fun k => { k with draws := draw + 2 }
    let text := ascii "KAX1" ++ devId ++ leBytes 1 x ++ leBytes 1 mode ++ hn ++ he ++ dn ++ de
    let t1 := sha text
    let sig := s.signIdentity t1
    let s := sig.2.modCtx x fun k =>
      { k with challenge := some { mode, slot, hn, he, dn, draw := draw + 1, t1, expires := s.time + 10000000000 } }
    s.writeRecord x c sg (dn ++ de ++ [0, 0, 0] ++ sig.1) 228

def execAuthChallenge (t : Time) (x : Ctx) (tag : BitVec 11) (sg : Nat) (s : State) : Host.Outcome State Fault Refusal :=
  .next (s.command t x tag 0x7001 fun s c => s.authChallenge x c sg)

/-- A valid grant (R314, Table 10.10). -/
def State.grantOk (s : State) (g : Bytes) : Bool :=
  let slot := s.sec.otp.slots.getD (leAt g 23 1) (0, [])
  sliceB 0 4 g == ascii "KSG1" && sliceB 4 16 g == devId && leAt g 20 2 == s.sec.otp.epoch && decide (leAt g 22 1 < 8)
    && slot.1 == 1 && decide (s.ledger.minutes < leAt g 24 4) && leAt g 125 3 == 0
    && Config.ecdsaVerify slot.2 (sha (g.take 128)) (sliceB 128 96 g)

/-- The host's proof verifies for the challenge's MODE (R312). -/
def State.proofOk (s : State) (x : Ctx) (h : Challenge) (p : Bytes) : Bool :=
  let sig := sliceB 0 96 p
  let g := p.drop 96
  let place := keyPlace x
  let key := sliceB place.2 97 (s.nvLook place.1).data
  match h.mode with
  | 0 => leAt key 0 1 == 4 && Config.ecdsaVerify key h.t1 sig
  | 1 =>
    let k := s.sec.otp.slots.getD h.slot (0, [])
    k.1 == 1 && Config.ecdsaVerify k.2 h.t1 sig
  | 2 => s.grantOk g && Config.ecdsaVerify (sliceB 28 97 g) h.t1 sig
  | _ => !s.sec.otp.owned

/-- A failed response counts; the eighth in a row locks the context for 60 s and raises AUTH_FAILED (R313). -/
def State.authFailed (s : State) (x : Ctx) (mode : Nat) : State :=
  let n := (s.ctx x).authFails + 1
  let s := s.bump .secAuthFailCnt x
  if n < 8 then s.modCtx x fun k => { k with authFails := n }
  else
    (s.modCtx x fun k => { k with authFails := 0, lockUntil := some (s.time + 60000000000) }).devEvent 0x0A03
      (leBytes 1 x ++ leBytes 1 mode)

/-- AUTH_RESPONSE (R312, R313). A context key stands in the NV store, which the guyline has to reach (R282, R311). -/
def State.authResponse (s : State) (x : Ctx) (c : Cmd) : State :=
  match (s.ctx x).challenge with
  | none =>
    if c.payload.length = 96 || c.payload.length = 320 then (s.authFailed x ((s.modeFor x).getD 0)).complete x c .authFail
    else s.complete x c .badParam
  | some h =>
    if c.payload.length ≠ (if h.mode = 2 then 320 else 96) then s.complete x c .badParam
    else if h.expires ≤ s.time then (s.authFailed x h.mode).complete x c .authFail
    else if h.mode = 0 && !s.nvUp then s.complete x c .failedFault
    else
    let s := (if h.mode = 0 then s.nvFetchAll [(keyPlace x).1] else s).verified ([1, 1, 2].getD h.mode 0)
    if !s.proofOk x h c.payload then (s.authFailed x h.mode).complete x c .authFail
    else
      let z := Config.ecdh384 (Config.random h.draw 48) h.he
      let key := padTo 48 (Config.hkdf384 z (h.hn ++ h.dn) (ascii "KL9630 FRAME" ++ leBytes 1 x) 48)
      let g := c.payload.drop 96
      let grant : Option Grant :=
        if h.mode = 2 then
          some { epoch := leAt g 20 2, rights := leAt g 22 1, slot := leAt g 23 1, notAfter := leAt g 24 4 }
        else none
      (s.modCtx x fun k =>
        { k with auth := some { mode := h.mode, t1 := h.t1, key, grant }, challenge := none, authFails := 0 }).complete x c .done

def execAuthResponse (t : Time) (x : Ctx) (tag : BitVec 11) (s : State) : Host.Outcome State Fault Refusal :=
  .next (s.command t x tag 0x7002 fun s c => s.authResponse x c)

/-- AUTH_CHALLENGE_EXPIRY (R313): 10 s after the challenge. -/
def execAuthChallengeExpiry (t : Time) (x : Ctx) (s : State) : Host.Outcome State Fault Refusal :=
  let s := s.advance t
  match (s.ctx x).challenge with
  | some h => if h.expires ≤ s.time then .next (s.modCtx x fun k => { k with challenge := none }) else .next s
  | none => .next s

/-- AUTH_LOCKOUT_END (R313): 60 s after the lock. -/
def execAuthLockoutEnd (t : Time) (x : Ctx) (s : State) : Host.Outcome State Fault Refusal :=
  let s := s.advance t
  match (s.ctx x).lockUntil with
  | some u => if u ≤ s.time then .next (s.modCtx x fun k => { k with lockUntil := none }) else .next s
  | none => .next s

end Sys2Proof.Machine
end

