-- ==== Sys2Proof/Machine/PairOps.lean ====
section
/-!
DEFINITION. The Vexnex pair: joining, heartbeats and detection, takeover, exchange, mirroring and handover (chapter 11). Messages to
the peer enter the transmitter of the link (State.pairSend); those from it are the events below, each with the outcome of its
GCM tag (R326).
-/
namespace Sys2Proof.Machine

def State.modPair (s : State) (f : Pair → Pair) : State := { s with pair := f s.pair }

/-! Joining (R327, R328, Table 11.4, Table 11.5). -/

/-- DEV_ID order: byte 0 first, unsigned (R328). -/
def idLess (a b : Bytes) : Bool := decide (leNat (padTo 16 a).reverse < leNat (padTo 16 b).reverse)

/-- The role of this device in the pair: 0 LEAD, 1 PARTNER (R328). -/
def State.joinRole (s : State) (peer : PeerJoin) : Nat :=
  let mine := s.par .pairRolePref
  if s.pair.mode = .sole then 0
  else if peer.sole then 1
  else if mine = peer.rolePref then (if idLess devId peer.devId then 0 else 1)
  else if mine < 2 then mine
  else if peer.rolePref = 0 then 1
  else 0

/-- PAIR_PEER_ID. -/
def State.wantedPeer (s : State) : Bytes := (List.range 4).flatMap fun i => leBytes 4 (s.par .pairPeerId i)

/-- The two devices share an active owner key hash. -/
def State.sharesOwner (s : State) (hashes : List Bytes) : Bool :=
  s.sec.otp.slots.any fun k => k.1 == 1 && hashes.contains (sha k.2)

/-- This device's DEV_ID and the peer's, the lower first. -/
def idsOf (peer : PeerJoin) : Bytes :=
  let p := padTo 16 peer.devId
  if idLess devId p then devId ++ p else p ++ devId

/-- What both devices sign (check 4 of Table 11.4): the text, the DEV_IDs and the ephemeral keys, in the order of the DEV_IDs
(log 116). -/
def joinText (peer : PeerJoin) (own : Bytes) : Bytes :=
  ascii "KVX1" ++ idsOf peer ++ if idLess devId (padTo 16 peer.devId) then own ++ peer.ephemeral else peer.ephemeral ++ own

/-- The peer has proved its identity: its key belongs to its DEV_ID and verifies its signature. -/
def peerProved (peer : PeerJoin) (own : Bytes) : Bool :=
  padTo 16 (sha peer.identity) == padTo 16 peer.devId && Config.p384Valid peer.ephemeral
    && Config.ecdsaVerify peer.identity (sha (joinText peer own)) peer.sig

/-- Checks 4 and 5 of Table 11.4: the number of the first that fails and its status. own: this device's ephemeral public key. -/
def State.joinRefusal (s : State) (peer : PeerJoin) (own : Bytes) : Option (Nat × Status) :=
  let paired : State := s.modPair fun p => { p with mode := .paired }
  if !peerProved peer own || padTo 16 peer.devId != s.wantedPeer || padTo 16 peer.peerId != devId || !s.sharesOwner peer.ownerHashes then
    some (4, .authFail)
  else if peer.revision ≠ s.sec.otp.revision || peer.fwVersion ≠ s.fwVersion || peer.memGib ≠ s.mem.gib || !paired.budgetHolds then
    some (5, .incoherent)
  else none

/-- The link key (R327). -/
def linkKey (peer : PeerJoin) (secret : Bytes) : Bytes :=
  padTo 32 (Config.hkdf384 (padTo 48 (Config.ecdh384 secret peer.ephemeral)) (idsOf peer) (ascii "KL9630 PAIR") 32)

/-- The active values of the shared blocks (Table 11.5 step 2). -/
def State.sharedValues (s : State) : List (Nat × Word) :=
  [0x00, 0x04, 0x05, 0x06, 0x07, 0x08, 0x0A, 0x0B, 0x0C].flatMap fun b => (blockParams b).flatMap fun p =>
    if p.row.access == .rw || p.row.access == .rws then
      (List.range p.row.count).map fun i => (p.id i, BitVec.ofNat 32 (s.par p i))
    else []

/-- The payload of an active bundle as it was imported: the directory and the sections, filled with zeros (R182; log 118). -/
def State.bundlePayload (s : State) (b : Bundle) : Bytes :=
  let n := b.secs.length
  let entry (e : Section) : Bytes := leBytes 2 e.typ ++ leBytes 1 e.tile ++ leBytes 1 e.set ++ leBytes 4 0 ++ leBytes 8 e.len
  padTo (roundUp 512 (8 + 16 * n)) (leBytes 4 n ++ leBytes 4 0 ++ b.secs.flatMap entry)
    ++ b.secs.flatMap fun e => padTo (roundUp 512 e.len) (s.readMem e.addr e.len)

/-- The LEAD's active bundle goes to the PARTNER: header, chunks, end (R335, Table 11.5 step 4). -/
def State.resendBundle (s : State) (b : Bundle) : State :=
  let all := s.bundlePayload b
  let s := s.pairSend .bundle (0 :: b.hdr)
  let s := (List.range (hdrChunks b.hdr)).foldl (fun s i =>
    s.pairSend .bundle (1 :: sliceB (1048576 * i) (chunkLen b.hdr i) all)) s
  s.pairSend .bundle [2]

/-- The drift mirror of every tile that the LEAD owns, in full, with its tile state record (Table 11.5 step 5). -/
def State.mirrorAll (s : State) : State :=
  (s.enabled.filter s.owns).foldl (fun s t => (s.mirrorTile t).pairSend .stateRecord (leBytes 1 t ++ s.stateRecord t .idle)) s

/-- This device hands tiles over: it does not drive them from now on (R323, R345). -/
def State.sendGiven (s : State) (tiles : BitVec 8) : State := s.pairSend .handover ([0] ++ leBytes 1 tiles.toNat)

/-- Checks 4 and 5 pass: state JOINING, the link key, and the pair's next frame number (R327, R329). The LEAD sends the shared
values, its bundle and then the mirror; the PARTNER's staged shared values and its bundle end, and it tells the LEAD that
TOWN[3:0] is low (Table 11.5, R323). -/
def State.enterJoining (s : State) (peer : PeerJoin) (key : Bytes) : State :=
  let role := s.joinRole peer
  let s := s.modPair fun p =>
    { p.apart .joining p.own with
      role, peerId := padTo 16 peer.devId, raising := if p.mode == .sole then 0x0F else 0, detectAt := s.time, rcvdAt := some s.time
      aliveFault := false, mirrorAge := List.replicate 8 255, handed := false, key, sent := 0 }
  let s : State := { s with tick := { s.tick with nextFrame := max s.tick.nextFrame peer.nextFrame } }
  if role = 0 then
    let s := s.pairSend .paramSync (0 :: valueBytes s.sharedValues)
    match s.bundle with
    | some b => s.resendBundle b
    | none => (s.modPair fun p => { p with peerBundle := some 0 }).mirrorAll
  else
    let s : State :=
      { s with bundle := none, ctxs := s.ctxs.map fun k => { k with staged := k.staged.filter fun e => !sharedId e.1 } }
    s.sendGiven 0x0F

/-- The peer's PAIR_JOIN and the link are there: checks 4 and 5 decide. The device draws its ephemeral key and signs. What it
presents to the peer in turn crosses the link in the clear (log 107). -/
def State.joinNow (s : State) (x : Ctx) (c : Cmd) (peer : PeerJoin) : State :=
  let secret := Config.random s.sec.draws 48
  let own := Config.p384Public secret
  let s := s.modSec fun k => { k with draws := k.draws + 1 }
  let r := s.signIdentity (sha (joinText peer own))
  let s := (r.2.verified 1).sendMessage .vx 0 (devId ++ padTo 97 identityPublic ++ padTo 97 own ++ r.1)
  match s.joinRefusal peer own with
  | some (n, st) => s.complete x c st n
  | none => (s.enterJoining peer (linkKey peer secret)).await x c (.pairJoin 2)

/-- MODE 2: the device takes all tiles without a peer (R327). -/
def State.joinSole (s : State) (x : Ctx) (c : Cmd) : State :=
  (s.modPair fun p => { p with mode := .sole, role := 2, peerRst := true, detectAt := s.time, raising := 0xFF }).await x c
    (.pairTick 2)

/-- PAIR_JOIN (R327, R414). -/
def State.pairJoin (s : State) (x : Ctx) (c : Cmd) (peer : PeerJoin) : State :=
  let mode := leAt c.payload 0 1
  let stateOk := s.pair.mode == .detached || (s.pair.mode == .sole && mode == 1)
  if s.dbg.level = 2 then s.complete x c .notPermitted 1
  else if c.payload.length ≠ 4 || leAt c.payload 1 3 ≠ 0 || mode = 0 || 2 < mode || s.par .pairBoard = 0 || !stateOk then
    s.complete x c .badParam 2
  else if mode = 2 then s.joinSole x c
  else if peer.joined && s.links.vxState == .up then s.joinNow x c peer
  else s.await x c (.pairJoin 1)

/-- PAIR_JOIN. A command that waits for the peer's PAIR_JOIN goes on when the event comes again with the peer joined
(log 21). -/
def execPairJoin (t : Time) (x : Ctx) (tag : BitVec 11) (peer : PeerJoin) (s : State) : Host.Outcome State Fault Refusal :=
  match (s.ctx x).inflight.find? fun c => c.tag % 2048 == tag.toNat && c.wait == .pairJoin 1 with
  | some c =>
    let s := s.advance t
    if peer.joined && s.links.vxState == .up then .next (s.joinNow x c peer) else .next s
  | none => .next (s.command t x tag 0x9001 fun s c => s.pairJoin x c peer)

/-- PAIR_JOIN_TIMEOUT (check 3 of Table 11.4). -/
def execPairJoinTimeout (t : Time) (s : State) : Host.Outcome State Fault Refusal :=
  let s := s.advance t
  let late (c : Cmd) : Bool := c.wait == .pairJoin 1 && decide (c.fetched + s.par .pairJoinTmo * 1000000000 ≤ s.time)
  .next (s.completeWhere fun _ c => if late c then some (.failedFault, 3) else none)

/-! Status (R347). -/

def LinkState.code : LinkState → Nat
  | .down => 0
  | .training => 1
  | .up => 2
  | .retraining => 3

/-- The record of Table 11.11. -/
def State.pairRecord (s : State) : Bytes :=
  let p := s.pair
  let age := match p.rcvdAt with
    | some r => min 0xFFFF ((s.time - r) / 1000)
    | none => 0xFFFF
  leBytes 1 p.mode.code ++ leBytes 1 p.role ++ leBytes 1 p.own.toNat ++ leBytes 1 s.links.vxState.code ++ padTo 16 p.peerId
    ++ leBytes 2 p.failovers ++ leBytes 1 p.detection ++ leBytes 1 p.leaveCause ++ leBytes 6 p.detectFrame ++ leBytes 2 age
    ++ p.mirrorAge.flatMap (leBytes 1) ++ List.replicate 24 0

def execPairStatus (t : Time) (x : Ctx) (tag : BitVec 11) (sg : Nat) (s : State) : Host.Outcome State Fault Refusal :=
  .next (s.command t x tag 0x9002 fun s c =>
    if c.payload.isEmpty then s.writeRecord x c sg s.pairRecord 64 else s.complete x c .badParam)

/-! Handover (R345, R346). -/

/-- A command that one of the devices has forwarded to the other is in flight, other than a PAIR_HANDOVER itself. -/
def State.forwarding (s : State) : Bool :=
  (s.findCmd fun x c => c.opcode != 0x9003 && (c.wait == .forwarded || s.bindingOf x == 11)).isSome

/-- Nothing of the frame being read is still to come or to be exchanged: every row of an owned tile has left stage 7 and its record is
out, and the record of every tile of the peer, which follows its rows, is there (R333, R334, R345). -/
def State.framePassed (s : State) : Bool :=
  match s.reading with
  | none => true
  | some f => allTiles.all fun t =>
    let k := f.tile t
    !k.enabled || (if k.own then s.rowsIn t k && (!f.paired || k.recordSent) else k.block.isSome)

/-- A frame blank in which a handover fits: the read-out of the present frame, its pointer resets and its skip pulses are over, its
rows are through, and the next lead slot is not near (R345; log 119). -/
def State.inBlank (s : State) : Bool :=
  s.framePassed && match s.seq.frame with
  | none => true
  | some (_, ts) =>
    let ended (t : Tile) : Bool :=
      !s.drives t || s.isDigital t
        || (s.seq.pointers.getLsbD t.val && s.slotAt ts (s.slotsOf t) + 100 + 20 * s.firstRow t ≤ s.time)
    s.slots ≤ s.seq.slot && s.slotAt ts s.slots ≤ s.time && allTiles.all ended && s.time + 30000 + 10000 ≤ s.slotAt ts 0 + s.pBudget

/-- Commands that wait for a handover complete at the next tick (R346). -/
def State.handoverWaits (s : State) : State :=
  let take (w : Wait) : Wait := match w with
    | .pairHandover _ => .pairTick 3
    | _ => w
  { s with ctxs := s.ctxs.map fun k => { k with inflight := k.inflight.map fun c => { c with wait := take c.wait } } }

/-- The event of a handover (Table 11.12). -/
def State.handoverEvent (s : State) : State := s.devEvent 0x0C06 (leBytes 1 s.pair.own.toNat ++ [0] ++ leBytes 6 s.tick.nextFrame)

/-- The giver drops every TOWN and sends the handover message; it is DETACHED, and its streams stop at the tick (R345, R346). -/
def State.giveAll (s : State) : State :=
  let alone := s.pair.ownBundle
  let s := (s.sendGiven s.pair.own).dropTransfer
  let s : State := { s with pair := { s.pair.apart .detached 0 with handed := true, alive := false } }
  let s := if alone then s.bundleReady else s
  let s := s.allStreams.foldl (fun s e => s.modStream e.1 e.2 fun m => { m with stopping := m.stopping || m.started, starting := false }) s
  let s := s.completeWhere fun _ c => match c.wait with
    | .streams _ _ => some (.aborted, 0)
    | _ => none
  s.publishGeometry.handoverWaits.handoverEvent

/-- What a due handover waits for: the end of forwarded commands, and on the giver a frame blank. A taker asks its peer. -/
def State.handoverStep (s : State) : State :=
  if s.pair.mode != .paired || s.forwarding then s
  else if s.pair.giving || (s.findCmd fun _ c => c.wait == .pairHandover 2).isSome then (if s.inBlank then s.giveAll else s)
  else if !s.pair.asked && (s.findCmd fun _ c => c.wait == .pairHandover 1).isSome then
    (s.modPair fun p => { p with asked := true }).pairSend .handover [1]
  else s

/-- PAIR_HANDOVER (R346). -/
def State.pairHandover (s : State) (x : Ctx) (c : Cmd) : State :=
  let mode := leAt c.payload 0 1
  if c.payload.length ≠ 4 || leAt c.payload 1 3 ≠ 0 || mode = 0 || 2 < mode then s.complete x c .badParam
  else if s.pair.mode != .paired then s.complete x c .busy
  else (s.await x c (.pairHandover mode)).handoverStep

def execPairHandover (t : Time) (x : Ctx) (tag : BitVec 11) (s : State) : Host.Outcome State Fault Refusal :=
  .next (s.command t x tag 0x9003 fun s c => s.pairHandover x c)

/-! Heartbeats (R338, R339). -/

/-- HEARTBEAT_SEND: every 100 µs a paired device sends one, and PAIR_ALIVE_O toggles. A handover that is due looks for its blank
(R345). -/
def execHeartbeatSend (t : Time) (s : State) : Host.Outcome State Fault Refusal :=
  let s := s.advance t
  let due := match s.pair.sentAt with
    | some k => decide (k + 100000 ≤ s.time)
    | none => true
  if s.pair.mode == .paired && due then
    .next ((s.sendHeartbeat false 0).modPair fun p => { p with sentAt := some s.time, alive := true }).handoverStep
  else .next s

/-- ALIVE_WATCHDOG_EXPIRY: no heartbeat sent for 200 µs. -/
def execAliveWatchdogExpiry (t : Time) (s : State) : Host.Outcome State Fault Refusal :=
  let s := s.advance t
  let quiet := match s.pair.sentAt with
    | some k => decide (k + 200000 ≤ s.time)
    | none => true
  if quiet then .next (s.modPair fun p => { p with alive := false }) else .next s

/-- HEARTBEAT_RECEIVED: one whose tag fails counts as absent (R326). -/
def execHeartbeatReceived (t : Time) (h : Heartbeat) (s : State) : Host.Outcome State Fault Refusal :=
  .next ((s.advance t).fromPeer h.tagOk fun s => s.modPair fun p =>
    { p with
      rcvdAt := some s.time, beat := some h, beatOff := h.frame != s.tick.frameNum, peerD2 := h.stage == 2
      leaveCause := if h.leaving then h.cause else p.leaveCause })

/-! Detection and takeover (R339 to R344). -/

/-- The first row of the current frame, as an index of the read-out, that the device does not have of a tile: f is the tile's
first row. -/
def firstLost (k : FrameTile) (f rows : Nat) : Nat :=
  ((List.range rows).find? fun r => !k.peer.any fun e => e.y == f + r).getD rows

/-- Slot s_0: the first slot boundary at or after 250 µs from now (Table 11.10 step 6). -/
def State.rewindSlot (s : State) (ts : Time) : Nat := (s.time + 250000 - s.slotAt ts 0 + 9999) / 10000

/-- The rewind of the taken analog tiles: first slot at or after 250 µs, and u per tile (Table 11.10, R340). -/
def State.rewindFor (s : State) (taken : BitVec 8) : Option (Nat × List Nat) :=
  match s.seq.frame, s.reading with
  | some (_, ts), some f =>
    let s0 := s.rewindSlot ts
    let u (t : Tile) : Nat :=
      let row := firstLost (f.tile t) (s.firstRow t) (s.tileRows t)
      if taken.getLsbD t.val && s.tileOn t && !s.isDigital t && !(s.tile t).faulted && row < s.tileRows t then row else 65535
    let us := allTiles.map u
    if us.all (· == 65535) then none else some (s0, us)
  | _, _ => none

/-- A flysheet cycle of the peer on a taken tile aborts with cause 13 (R341, R164). A request that the peer had not taken up is this
device's from now on (R162, R337). -/
def State.takeFlysheet (s : State) (t : Tile) : State :=
  if s.peerCycle t then
    let closed := s.showsClosed t
    let s := (s.modDrift t fun k => { k with cause := 13, step := .isOpen, stale := .untilOpen, openWait := closed }).flyEnded t .aborted
    let s := (s.bumpHalf .flyEvtCnt t 1 1).devEvent 0x0601 (leBytes 1 t ++ [13])
    if closed then s.drive t .isOpen s.time (s.flyPulse t) else s
  else if s.ctxs.any fun k => k.inflight.any fun c => waitsForFly t c.wait then
    if (s.dr t).inFault then s.flyEnded t .faulted else s.modDrift t fun k => { k with reasons := k.reasons ||| 0b10000 }
  else s

/-- CLEAR_FAULT commands whose last tile of the peer has left fault complete (R162). -/
def State.faultLeft (s : State) (t : Tile) : State :=
  let note (w : Wait) : Wait := match w with
    | .flyClear m => .flyClear (if bitOf m t then m - 2 ^ t.val else m)
    | w => w
  let s : State := { s with ctxs := s.ctxs.map fun k => { k with inflight := k.inflight.map fun c => { c with wait := note c.wait } } }
  s.completeWhere fun _ c => if c.wait == .flyClear 0 then some (.done, 0) else none

/-- A CLEAR_FAULT that waits for a taken tile is this device's to do (R162, R344). -/
def State.takeClear (s : State) (t : Tile) : State :=
  if s.ctxs.any fun k => k.inflight.any fun c => match c.wait with | .flyClear m => bitOf m t | _ => false then
    (s.clearFault t).faultLeft t
  else s

/-- The taken tiles of the frame being read are the survivor's from now on; a digital one waits for slot s_0 (R341), and an analog one
that is read again has its pointer reset still to come (R340). -/
def State.takeTiles (s : State) (taken : BitVec 8) : State :=
  let again := maskOf (allTiles.map fun t => (s.rewindOf t).isSome)
  let s : State := { s with seq := { s.seq with pointers := s.seq.pointers &&& ~~~ BitVec.ofNat 8 again } }
  let mine := allTiles.filter fun t => taken.getLsbD t.val && s.tileOn t
  let s := mine.foldl (fun s t => s.modReading t fun k => { k with own := true }) s
  match s.seq.frame with
  | some (_, ts) =>
    let digital := maskOf (allTiles.map fun t => mine.contains t && s.isDigital t)
    s.modPair fun p => { p with held := BitVec.ofNat 8 digital, heldTill := s.slotAt ts (s.rewindSlot ts) }
  | none => s

/-- A transfer of SHO that the failover cut off, or that no tile state record has installed (R336; log 49). -/
def State.mirrorLost (s : State) (t : Tile) : State :=
  if s.pair.mirrorOpen.getLsbD t.val then (s.modDrift t fun k => { k with hasRef := false }).devEvent 0x0C05 (leBytes 1 t) else s

/-- The tags of the commands that are with the peer. -/
def State.forwardedTags (s : State) : List Nat :=
  allCtx.flatMap fun x => ((s.ctx x).inflight.filter fun c => c.wait == .forwarded).map fun c => c.tag % 2048

/-- Detection: the peer is reset, the device goes on as SOLE, and forwarded commands complete in fetch order (R340, R344). A LEAD
whose own part of an import is done goes on alone; a PARTNER discards its transfer (R335). -/
def State.failover (s : State) (how : Nat) : State :=
  let taken : BitVec 8 := ~~~ s.pair.own
  let tiles := allTiles.filter fun t => taken.getLsbD t.val
  let cause := if how = 1 then s.pair.leaveCause else 0
  let s := tiles.foldl (fun s t => s.takeFlysheet t) s
  let s := tiles.foldl (fun s t => s.takeClear t) s
  let s := tiles.foldl (fun s t => s.mirrorLost t) s
  let rewind := s.rewindFor taken
  let s := s.dropTransfer
  let alone := s.pair.ownBundle
  let s := s.modPair fun p =>
    { p.apart .sole p.own with
      peerRst := true, detectAt := s.time, raising := taken, failovers := satAdd 0xFFFF p.failovers 1
      detection := how, detectFrame := s.tick.frameNum, rewind, failedTags := p.failedTags ++ s.forwardedTags }
  let s := (s.takeTiles taken).publishGeometry
  let s := if alone then s.bundleReady else s
  let s := (s.bump .pairFailoverCnt).devEvent 0x0C01
    (leBytes 1 how ++ leBytes 1 cause ++ leBytes 1 taken.toNat ++ [0] ++ leBytes 6 s.tick.frameNum)
  s.completeInOrder fun _ c => match c.wait with
    | .forwarded => some (.failedFailover, 0)
    | .pairHandover _ => some (.failedFailover, 0)
    | _ => none

/-- Withdrawal of a PARTNER (Table 11.9): it goes silent. Table 9.16 has no cause for its failed frames: a free value (log 24). -/
def State.withdrawPair (s : State) (why : Nat) : State :=
  let s := (s.modPair fun p => { p with detection := 3, detectFrame := s.tick.frameNum }).detach
  let v := s.takeFree 8
  (v.2.stopStreams v.1).devEvent 0x0C03 (leBytes 1 why)

/-- No heartbeat for a time, counted from the join if none came since. -/
def State.noBeat (s : State) (t : Nat) : Bool :=
  match s.pair.rcvdAt with
  | some r => decide (r + t ≤ s.time)
  | none => true

/-- The peer's alive wire is silent while heartbeats arrive: one count and one event per silence. -/
def State.aliveSilence (s : State) (silent : Bool) (lastEdge : Time) : State :=
  if !silent then s.modPair fun p => { p with aliveFault := false }
  else if s.pair.aliveFault || !(match s.pair.rcvdAt with | some r => decide (lastEdge + 50000 ≤ r) | none => false) then s
  else ((s.modPair fun p => { p with aliveFault := true }).bump .pairAliveErrCnt).devEvent 0x0C04 []

/-- PAIR_DETECTION_SAMPLE (Table 11.9): lastEdge is the time of the last edge on PAIR_ALIVE_I. -/
def execPairDetectionSample (t : Time) (lastEdge : Time) (s : State) : Host.Outcome State Fault Refusal :=
  let s := s.advance t
  if s.pair.mode != .paired then .next s
  else
    let lead := s.pair.role == 0
    let silent := decide (lastEdge + 50000 ≤ s.time)
    if s.pair.beat.any (·.leaving) then .next (s.failover 1)
    else if silent && s.noBeat (if lead then 150000 else 250000) then .next (s.failover 2)
    else if !silent && s.noBeat 450000 then .next (if lead then s.failover 3 else s.withdrawPair 1)
    else if !lead && s.pair.beat.isSome && s.pair.beatOff then .next (s.withdrawPair 2)
    else .next (s.aliveSilence silent lastEdge)

/-! TOWN (R323, R340, R345, Table 11.5). -/

/-- The join may end: the PARTNER has the LEAD's bundle and has activated it, and a frame blank is there (Table 11.5 steps 4 to
6). -/
def State.joinReady (s : State) : Bool :=
  s.pair.transfer.isNone && s.act == .none && s.inBlank && (s.pair.role == 1 || s.pair.peerBundle == some 0)

/-- The generations of the tags that a failover ended go to the peer before forwarding resumes (R344). -/
def State.sendGens (s : State) : State :=
  if s.pair.failedTags.isEmpty then s
  else
    let s := s.pairSend .paramSync (4 :: s.pair.failedTags.flatMap fun t => leBytes 2 t ++ leBytes 1 (s.genOf t))
    s.modPair fun p => { p with failedTags := [] }

/-- State PAIRED (Table 11.5 step 6): the LEAD keeps T0 to T3 and hands T4 to T7 over, which the PARTNER takes; PAIR_JOINED, and
PAIR_JOIN completes at the next tick. L_p takes in the exchange (R332). -/
def State.pairJoined (s : State) : State :=
  let s := s.modPair fun p =>
    { p with
      mode := .paired, own := if p.role = 0 then 0x0F else p.raising, raising := 0, rcvdAt := some s.time, peerBundle := none }
  let s := if s.pair.role = 0 then s.sendGiven 0xF0 else s
  let join (w : Wait) : Wait := if w = .pairJoin 2 then .pairTick 1 else w
  let s : State :=
    { s with ctxs := s.ctxs.map fun k => { k with inflight := k.inflight.map fun c => { c with wait := join c.wait } } }
  s.publishGeometry.sendGens.devEvent 0x0C00 (leBytes 1 s.pair.role ++ leBytes 1 s.pair.own.toNat ++ leBytes 6 s.tick.nextFrame)

/-- The taker of a handover is SOLE; its PAIR_HANDOVER completes at the next tick (R345, R346). -/
def State.handoverDone (s : State) : State :=
  let s := s.modPair fun p => { p.apart .sole (p.own ||| p.raising) with handed := true }
  s.publishGeometry.handoverWaits.handoverEvent

/-- A takeover without a row to read again is done when its tiles are connected (log 22). -/
def State.takeoverRaised (s : State) : State :=
  let tiles := s.pair.raising
  let fresh := s.pair.own != 0
  let s := s.modPair fun p => { p with own := p.own ||| p.raising, raising := 0 }
  if fresh && s.pair.rewind.isNone then s.devEvent 0x0C02 (leBytes 1 tiles.toNat ++ [0, 0, 0] ++ leBytes 6 s.tick.frameNum) else s

/-- PAIR_TOWN_RAISE: 10 µs after PEER_RST_N, 5 µs after a handover message, or at the end of a join. -/
def execPairTownRaise (t : Time) (s : State) : Host.Outcome State Fault Refusal :=
  let s := s.advance t
  let p := s.pair
  if p.raising = 0 then .next s
  else match p.mode with
    | .sole => if p.detectAt + 10000 ≤ s.time then .next s.takeoverRaised else .next s
    | .joining => if p.detectAt + 5000 ≤ s.time && s.joinReady then .next s.pairJoined else .next s
    | .paired => if p.detectAt + 5000 ≤ s.time then .next s.handoverDone else .next s
    | _ => .next s

/-- PEER_RST_RELEASE: 1,000 µs after detection (Table 11.10 step 7). -/
def execPeerRstRelease (t : Time) (s : State) : Host.Outcome State Fault Refusal :=
  let s := s.advance t
  if s.pair.peerRst && decide (s.pair.detectAt + 1000000 ≤ s.time) then .next (s.modPair fun p => { p with peerRst := false })
  else .next s

/-- HANDOVER_MESSAGE (R345, R346): the peer has dropped TOWN of tiles, or asks for every tile. In a join the tiles are those that this
device drives afterwards, which a SOLE LEAD drives already (Table 11.5 step 6). -/
def execHandoverMessage (t : Time) (m : Sealed HandoverMsg) (s : State) : Host.Outcome State Fault Refusal :=
  .next ((s.advance t).fromPeer m.ok fun s =>
    if !s.linked then s
    else match m.body with
      | .given tiles => s.modPair fun p =>
          { p with raising := if p.mode == .joining then tiles else tiles &&& ~~~ p.own, detectAt := s.time }
      | .asked => s.modPair fun p => { p with giving := p.giving || p.mode == .paired })

/-! The PARTNER's tick (R329, R337). -/

/-- PAIR_TICK_MESSAGE: the PARTNER's tick, with the LEAD's number, timestamp and grants. At an idle tick too the number of the latest
numbered tick is the pair's. -/
def State.partnerTick (s : State) (m : TickMsg) : State :=
  if s.linked && s.pair.role == 1 then
    let s := s.modPair fun p => { p with peerD2 := m.d2 }
    let s : State :=
      { s with tick := { s.tick with
          frameNum := m.frame, nextFrame := if m.numbered then m.frame else s.tick.nextFrame
          next := if s.tick.state = .internal then m.ts + 10 * s.par .tickPeriod else s.tick.next } }
    s.frameTick m.ts (m.tickState == 2) (m.tickState == 3) (some (m.numbered, m.grants))
  else s

def execPairTickMessage (t : Time) (m : TickMsg) (s : State) : Host.Outcome State Fault Refusal :=
  .next ((s.advance t).fromPeer m.tagOk fun s => s.partnerTick m)

/-! Exchange (R333, R334) and mirror (R335, R336). -/

/-- The pixels of an exchanged row (Table 11.6). -/
def exchangedRow (y : Nat) (words : List (BitVec 64)) : Row7 :=
  let w := words.map (·.toNat)
  { y, nc1 := w.map fun v => signed 20 (v % 2 ^ 20), nc2 := w.map fun v => signed 20 (v / 2 ^ 20 % 2 ^ 20)
    conf := w.map fun v => v / 2 ^ 40 % 16, replaced := w.map fun v => bitOf v 44, held := w.map fun v => bitOf v 45 }

/-- A row of a tile of the peer runs through stages 8 to 10 when its mosaic row completes. -/
def State.takeRow (s : State) (f : Frame) (t : Tile) (row : Row7) : State :=
  if f.paired && !(f.tile t).own && s.firstRow t ≤ row.y then
    (s.modReading t fun k =>
      { k with
        peer := k.peer ++ [row], arrived := k.arrived ++ [row.y - s.firstRow t], entered := k.entered ++ [(row.y, s.time)] }).perfEvent
      15 0x13
  else s

/-- ROW_EXCHANGE (R333). -/
def execRowExchange (t : Time) (hdr : Sealed Bytes) (words : List (BitVec 64)) (s : State) : Host.Outcome State Fault Refusal :=
  let h := hdr.body
  .next ((s.advance t).fromPeer hdr.ok fun s =>
    match allTiles[leAt h 6 1]?, s.reading with
    | some tile, some f => if f.num == leAt h 0 6 then s.takeRow f tile (exchangedRow (leAt h 8 2) words) else s
    | _, _ => s)

/-- The flysheet step of a code of FLY_STATE[3:0]. -/
def flyStepOf (code : Nat) : FlyStep :=
  ([.off, .isOpen, .close, .closeSettle, .average, .compute, .opening, .openSettle, .fault].find? fun k => k.code == code).getD .off

/-- What a tile state record gives to the drift state of a tile (Table 11.7); an end of window of 2^64 - 1 stands for a window
that lasts until it is cleared (log 23). -/
def Drift.install (d : Drift) (r : Bytes) : Drift :=
  let fly := leAt r 22 3
  let step := flyStepOf (fly % 16)
  let start := leAt r 32 8
  let stop := leAt r 40 8
  { d with
    tsNow := signed 16 (leAt r 6 2), tsFly := signed 16 (leAt r 12 2), tsCnt := signed 16 (leAt r 14 2)
    cmBase := signed 32 (leAt r 16 4), exc := leAt r 20 2, step, cause := fly / 16 % 16, inFault := step == .fault
    moving := bitOf fly 14, degraded := bitOf fly 15, reasons := BitVec.ofNat 5 (fly / 2 ^ 16)
    hasRef := bitOf (leAt r 25 1) 0, cfgChanged := bitOf (leAt r 25 1) 1, cmChanged := bitOf (leAt r 25 1) 2
    lastRef := leAt r 26 6, lastRefTime := leAt r 48 8
    inhibit := if stop = 0 then none else some { start, stop := if stop = 2 ^ 64 - 1 then none else some stop, raised := false }
    dueSince := if bitOf fly 13 then some (leAt r 56 6) else none }

/-- How a request on a tile of the peer ended, as its records show. A flysheet in fault has faulted, and so has a tile whose request
went without a cycle while its region is dropped: a tile in FAULT (R71, R162). A cycle that ended in its last step without a new cause
has completed; any other end is an abort. -/
def cycleEnd (before after : Drift) (dropped : Bool) : FlyEnd :=
  if after.inFault then .faulted
  else if before.step = .openSettle && after.cause = before.cause then .done after.moving
  else if dropped && before.step = .isOpen then .faulted
  else .aborted

/-- Drift records from a pixel on, in the order of the map of the tile, whose rows have its pitch (R171). -/
def State.mirrorRecords (s : State) (t : Tile) (pix : Nat) (recs : List Word) : State :=
  let cols := roundUp 128 (s.par .actCols t)
  (recs.zipIdx.foldl (fun s e =>
    let p := pix + e.2
    s.putDpr t (p % cols) (p / cols) (Dpr.ofNat e.1.toNat)) s)

/-- A complete SHO mirror is installed with the tile state record that follows it: its records and its candidate list
(Table 11.8). -/
def State.installMirror (s : State) (t : Tile) : State :=
  match s.pair.mirrors.find? fun m => m.tile == t.val && m.cands.isSome with
  | some m =>
    let cands := m.cands.getD []
    let n := leAt cands 6 2
    let s := m.parts.foldl (fun s e => s.mirrorRecords t e.1 e.2) s
    let s := s.writeMem (candAddr t) cands
    let s := s.modDrift t fun d =>
      { d with cands := (List.range n).map fun i => leAt cands (16 + 4 * i) 4 % 2 ^ 23, candCnt := n }
    s.modPair fun p =>
      { p with
        mirrors := p.mirrors.filter fun k => k.tile != t.val, mirrorOpen := p.mirrorOpen &&& ~~~ BitVec.ofNat 8 (2 ^ t.val)
        mirrorAge := p.mirrorAge.set t.val 0 }
  | none => s

/-- What a record of the peer says of the requests on a tile (R337). While it shows a cycle, or a request that waits for one, they are
open: a grant that started nothing has not ended them. Else a cycle that ran has ended, and so has every request that the owner's
evaluation at the latest tick has seen. -/
def State.peerOutcome (s : State) (t : Tile) (before : Drift) (ran dropped : Bool) : State :=
  let k := s.dr t
  let s := if k.inFault then s else s.faultLeft t
  if k.reasons.getLsbD 4 || s.peerCycle t then s
  else
    let seen (c : Cmd) : Bool := ran || (match s.tick.last with | some ts => decide (c.fetched ≤ ts) | none => false)
    let s := s.flyEndedFor seen t (cycleEnd before k dropped)
    if s.ctxs.any fun k => k.inflight.any fun c => waitsForFly t c.wait then s else s.modDrift t fun d => { d with force := false }

/-- After a handover the record of a tile that the peer had in the frame being read may still be on its way (R334, R345). -/
def State.recordOpen (s : State) (t : Tile) : Bool :=
  s.pair.handed && s.reading.any fun f => f.paired && (f.tile t).enabled && !(f.tile t).own && (f.tile t).block.isNone

/-- A tile state record: the block for the frame record, the mirror of the drift state, and the outcome of a flysheet command
that names the tile (R334, R335, R337). -/
def State.takeRecord (s : State) (t : Tile) (rec : Bytes) : State :=
  if (s.linked && !s.owns t) || s.recordOpen t then
    let before := s.dr t
    let ran := s.peerCycle t
    let s := s.modReading t fun k => if k.own then k else { k with block := some (sliceB 0 12 rec) }
    ((s.modDrift t fun d => d.install (padTo 64 rec)).installMirror t).peerOutcome t before ran (bitOf (leAt rec 0 2) flagDropped)
  else s

/-- TILE_STATE_RECORD. -/
def execTileStateRecord (t : Time) (tile : Tile) (rec : Sealed Bytes) (s : State) : Host.Outcome State Fault Refusal :=
  .next ((s.advance t).fromPeer rec.ok fun s => s.takeRecord tile rec.body)

/-- The part of an SHO mirror joins what has arrived of it; the last one carries the candidate list. -/
def Pair.addMirror (p : Pair) (t : Nat) (pix : Nat) (recs : List Word) (cands : Option Bytes) : Pair :=
  let old := (p.mirrors.find? fun m => m.tile == t && m.cands.isNone).getD { tile := t, parts := [], cands := none }
  { p with
    mirrors := (p.mirrors.filter fun m => m.tile != t) ++ [{ old with parts := old.parts ++ [(pix, recs)], cands }]
    mirrorOpen := p.mirrorOpen ||| BitVec.ofNat 8 (2 ^ t) }

/-- DRIFT_MIRROR (Table 11.8): snapshots are installed record by record as received, an SHO mirror with a tile state record. -/
def execDriftMirror (t : Time) (tile : Tile) (item : Sealed MirrorItem) (s : State) : Host.Outcome State Fault Refusal :=
  .next ((s.advance t).fromPeer item.ok fun s =>
    if s.owns tile || !s.linked then s
    else match item.body with
      | .snapshot pix recs => s.mirrorRecords tile pix recs
      | .sho pix recs cands last => s.modPair fun p => p.addMirror tile pix recs (if last then some cands else none))

/-- The reply that 16 bytes spell (Table 9.9). -/
def replyOf (b : Bytes) : Reply :=
  { tag := leAt b 0 2, status := statusOf (leAt b 2 1), early := bitOf (leAt b 3 1) 1, result := leAt b 4 4, time := leAt b 8 8
    phase := false }

/-- A reply ends the forwarded command of its tag (R342); a refusal before the tag was taken ends the latest one and moves no
generation (R270). The CMD_DONE event is the partner context's, and comes as an event of its own; a command that the sampler has tagged
gets its record here (R408). -/
def State.forwardReply (s : State) (x : Ctx) (r : Reply) : State :=
  let mine := (s.ctx x).inflight.filter fun c => c.tag % 2048 == r.tag % 2048 && c.wait == .forwarded
  match if r.early then mine.getLast? else mine.head? with
  | none => s
  | some c =>
    let s := if r.early then s.modCtx x fun k => { k with inflight := k.inflight.filter fun d => d.order != c.order } else s.endCmd x c
    let s := s.replyTo x r
    (if c.sampled then s.addSample (commandSample x c r.status r.early (!r.early) s.time) else s).handoverStep

/-- FORWARDED_REPLY (R342): a reply or an event for a forwarding context x, or for a context x bound with code 11 a command, whose
check 1 the peer has made, or its reset. -/
def execForwardedReply (t : Time) (ok : Bool) (x : Ctx) (m : FwdMsg) (s : State) : Host.Outcome State Fault Refusal :=
  .next ((s.advance t).fromPeer ok fun s =>
    match m with
    | .reply bytes => s.forwardReply x (replyOf bytes)
    | .event bytes => s.eventAt x (leAt bytes 0 2) (sliceB 24 40 bytes) { time := leAt bytes 8 8, frame := leAt bytes 16 6 }
    | .command header payload => if s.isAuth x && s.bindingOf x = 11 then s.fetchCommand x (parseHeader header) payload true else s
    | .reset => if s.isAuth x && s.bindingOf x = 11 then (s.resetCtx x .command none).2 else s)

/-! Calibration transfer (R335). -/

/-- This PARTNER refuses the bundle under transfer. -/
def State.transferRefused (s : State) (st : Status) : State := (s.modPair fun p => { p with transfer := none }).answerBundle st

/-- The header of a transfer: checks 3 to 5 of R188 with the LEAD's DEV_ID. -/
def State.transferHeader (s : State) (h : Bytes) : State :=
  let s := if hdrShapeOk h then s.verified 1 else s
  match s.hdrRefusal s.pair.peerId h with
  | some st => s.transferRefused st
  | none =>
    (s.clearMem (calAreaAddr s.freeArea) calAreaBytes).modPair fun p => { p with transfer := some (newSession 0 h s.time) }

/-- A chunk of plaintext is placed in the free area; what breaks the directory or a RAD section ends the transfer. -/
def State.transferData (s : State) (b : Bytes) : State :=
  match s.pair.transfer with
  | none => s
  | some k =>
    match k.add b (calAreaAddr s.freeArea) with
    | none => s.transferRefused .badParam
    | some k2 =>
      let s := (k2.secs.getD []).foldl (fun s e => s.placePart k.plain.length b e) s
      s.modPair fun p => { p with transfer := some k2 }

/-- The end of a transfer: the digest, and the commit of the bundle's identity (R335, R190). An END that the LEAD repeats finds the
identity committed, or its commit under way. -/
def State.transferEnd (s : State) : State :=
  match s.pair.transfer with
  | none => s.answerBundle (if s.act == .committing && s.session.isSome then .done else .notPermitted)
  | some k =>
    if s.pair.bundleTxn.isSome then s
    else if k.next < hdrChunks k.hdr then s.transferRefused .badParam
    else if sha k.plain != hdrDigest k.hdr then s.transferRefused .authFail
    else if !s.nvUp then s.answerBundle .failedFault
    else if s.nv.spares.length < 64 then s.answerBundle .nvFull
    else s.nvSubmit { ups := [(8, 0, s.identityRecord k.hdr)], now := true, owner := none, act := .bundle }

/-- The PARTNER's part. -/
def State.partnerBundle (s : State) : BundleMsg → State
  | .header b => s.transferHeader b
  | .data b => s.transferData b
  | .finish => s.transferEnd
  | .result _ => (s.modPair fun p => { p with transfer := none, bundleTxn := none }).dropTransfer
  | .activate => if s.act == .committing && s.session.isSome then { s with act := .waiting s.time } else s

/-- The LEAD's part: the PARTNER's answer decides END, or the join (R335, Table 11.4). -/
def State.leadBundle (s : State) : BundleMsg → State
  | .result st =>
    if s.pair.mode == .joining then
      if st = 0 then (s.modPair fun p => { p with peerBundle := some 0 }).mirrorAll else s.joinFails (statusOf st)
    else if s.pair.ownBundle then (if st = 0 then s.bundleReady else s.bundleRefused (statusOf st))
    else s.modPair fun p => { p with peerBundle := some st }
  | _ => s

/-- PAIR_BUNDLE_TRANSFER. -/
def execPairBundleTransfer (t : Time) (ok : Bool) (m : BundleMsg) (s : State) : Host.Outcome State Fault Refusal :=
  .next ((s.advance t).fromPeer ok fun s =>
    if !s.linked then s else if s.pair.role = 1 then s.partnerBundle m else s.leadBundle m)

end Sys2Proof.Machine
end

