-- ==== Sys2Proof/Machine/LinkOps.lean ====
section
/-!
DEFINITION. The guyline and the Vexnex link: flits, acknowledgement, replay, retrain, the sideband wires and class-0 events
(R41 to R52, R325). Both ends of the guyline are in the device: a flit that arrives was sent by the die at the other end.
-/
namespace Sys2Proof.Machine

/-! Sides. -/

/-- The direction whose data flits a link flit received in direction d acknowledges. -/
def oppositeDir : LinkDir → LinkDir
  | .fc => .cf
  | .cf => .fc
  | .vx => .vx

def replayParam : LinkDir → Param
  | .fc => .glnReplayCntFc
  | .cf => .glnReplayCntCf
  | .vx => .pairReplayCnt

def crcParam : LinkDir → Param
  | .fc => .glnCrcCntFc
  | .cf => .glnCrcCntCf
  | .vx => .pairCrcCnt

/-- Unit and code that count a replay of the transmitter of a direction (Table 14.1). -/
def replayUnit : LinkDir → Nat
  | .fc => 3
  | .cf => 5
  | .vx => 15

/-! Retrain and replay (R44 to R47, R325). -/

/-- A retrain starts: both directions stop (R46). -/
def State.retrain (s : State) : LinkDir → State
  | .vx => { (s.bump .pairRetrainCnt) with links := { s.links with vxState := .retraining } }
  | _ => ({ (s.bump .glnRetrainCnt) with links := { s.links with gln := .retraining, retrainAt := s.time } } : State).perfEvent 5 0x12

def retrainLimit : LinkDir → Param
  | .vx => .pairRetrainLim
  | _ => .glnRetrainLim

/-- The 1 ms window of the time base that an instant lies in (R46). -/
def windowOf (t : Time) : Nat := t / 1000000

/-- A replay is counted in the present window. -/
def LinkSide.countReplay (k : LinkSide) (now : Time) : LinkSide :=
  { k.noteFlits now k.replay.length with
    replay := k.replay.map fun e => (e.1, now)
    window := (if k.windowAt = windowOf now then k.window else 0) + 1, windowAt := windowOf now }

/-- A replay: the transmitter resends from the oldest unacknowledged flit, and a full window starts a retrain (R44, R46); in a
window that is full already each further replay starts another one (log 127). -/
def State.replay (s : State) (d : LinkDir) : State :=
  let s := (s.bump (replayParam d)).perfEvent (replayUnit d) 0x11
  let s := s.modSide d fun k => k.countReplay s.time
  if s.par (retrainLimit d) ≤ (s.side d).window && s.linkUp d then s.retrain d else s

/-- Flits up to SEQ n, n among them, are acknowledged. -/
def ackTo (n : Nat) (replay : List (BitVec 256 × Time)) : List (BitVec 256 × Time) :=
  if replay.any fun e => flitSeq e.1.toNat == n then (replay.dropWhile fun e => flitSeq e.1.toNat != n).drop 1 else replay

/-- A link flit: ACK carries the acknowledged SEQ, NAK the expected one (Table 1.6, R44). What is acknowledged makes room for
waiting flits. -/
def State.linkFlit (s : State) (d : LinkDir) (v : Nat) : State :=
  let o := oppositeDir d
  match flitCode v with
  | 1 => (s.modSide o fun k => { k with replay := ackTo (flitSeq v) k.replay }).pump o
  | 2 => ((s.modSide o fun k => { k with replay := ackTo ((flitSeq v + 255) % 256) k.replay }).replay o).pump o
  | _ => s

/-! What a class-0 event does at the other die (R50 to R52). -/

def reservedCode : Wire → Nat → Bool
  | .fc, c => c == 0 || 5 < c
  | .cf, c => c == 0 || 3 < c

/-- What the receiving die does with a class-0 event at its first copy (R50, Table 1.9): the C-die takes note of a power-fail
warning, reports a flysheet fault, and stops its part for a sensor at shutdown level or a loss of PLL_A's source; the F-die
unbiases the tiles for a thermal shutdown or a loss of PLL_C's or PLL_M's source. The cause of these two is 1 where the device was
in a pair as the C-die raised the event: the bias outputs then hold (R338; log 107). -/
def State.act0 (s : State) (w : Wire) (code detail cause : Nat) : State :=
  match w, code with
  | .fc, 1 => s.pfwC
  | .fc, 2 => s.devEvent 0x0600 (leBytes 1 detail ++ leBytes 1 cause)
  | .fc, 3 => if detail = 2 then s.dieFault 2 else s
  | .fc, 4 => s.shutdownC detail
  | .fc, 5 => (s.devEvent 0x0910 [0]).coastC
  | .cf, 1 => s.shutdownF (cause == 1)
  | .cf, 2 => if detail = 2 then s.dieFault 2 else s
  | .cf, 3 => s.coastF (cause == 1)
  | _, _ => s

/-- Lowest event number not acted on, and the record of events E to E + 15, of a wire. -/
def State.acted (s : State) : Wire → Nat × BitVec 16
  | .fc => (s.links.ackFC, s.links.actFC)
  | .cf => (s.links.ackCF, s.links.actCF)

def State.setActed (s : State) (w : Wire) (e : Nat × BitVec 16) : State :=
  match w with
  | .fc => { s with links := { s.links with ackFC := e.1, actFC := e.2 } }
  | .cf => { s with links := { s.links with ackCF := e.1, actCF := e.2 } }

/-- The window moves past the events that have been acted on. -/
def slide : Nat → Nat × BitVec 16 → Nat × BitVec 16
  | 0, e => e
  | n + 1, (low, rec) => if rec.getLsbD 0 then slide n ((low + 1) % 65536, rec >>> 1) else (low, rec)

/-- Event low + k of a wire arrives on one of the two paths: the first copy acts. -/
def State.class0 (s : State) (w : Wire) (k code detail cause : Nat) : State :=
  let e := s.acted w
  if 16 ≤ k || e.2.getLsbD k then s
  else
    let s := s.setActed w (slide 16 (e.1, e.2 ||| BitVec.ofNat 16 (2 ^ k)))
    let num := (e.1 + k) % 65536
    let s : State := { s with links := { s.links with raised := s.links.raised.filter fun r => !(r.1 == w && r.2.1 == num) } }
    s.act0 w code detail cause

/-- The cause that a raised event carries; the sideband word has no room for it. -/
def State.raisedCause (s : State) (w : Wire) (num : Nat) : Nat :=
  match s.links.raised.find? fun r => r.1 == w && r.2.1 == num with
  | some r => r.2.2.2.2
  | none => 0

/-- A sideband word is whole: START, STOP, CHECK over bit times 1 to 14, and a CODE in use (Table 1.7, R51). A wrong START or
STOP bit counts like a bad CHECK (log 102). -/
def sidebandOk (w : Wire) (v : Nat) : Bool :=
  !bitOf v 0 && bitOf v 19 && bitsOf v 18 15 == crc4 (bitsLsb 14 (v / 2)) && !reservedCode w (bitsOf v 4 1)

/-! Messages received (R43, R44). -/

/-- A copy of an event arrives by its number. -/
def State.class0Num (s : State) (w : Wire) (num code detail cause : Nat) : State :=
  s.class0 w ((num + 65536 - (s.acted w).1) % 65536) code detail cause

/-- A message has arrived whole at the C-die: a row enters stage 1, and what it lets leave stage 7 goes to the peer of a pair; a
frame start is taken; a housekeeping result is noted; an event of the F-die is reported (R18, R19, R43, R333). -/
def State.messageC (s : State) (b : Bytes) : State :=
  match parseMsg b with
  | some (.videoRow frame tile row _ words) =>
    match allTiles[tile]? with
    | some t => (s.processRow frame t row words).exchange frame false t
    | none => s
  | some (.frameStart frame ts) => s.frameStarts frame ts
  | some (.hkResult ch word) => s.modHk fun h => { h with shown := h.shown.set ch word }
  | some (.event at_ code detail) => s.devEventAt code detail at_
  | _ => s

/-- A message has arrived whole at the F-die: the values of the C-die's sensors, whose age counts from here (R103; log 147), and the
channels' trim (R93). -/
def State.messageF (s : State) (b : Bytes) : State :=
  match parseMsg b with
  | some (.sensors vals) => s.modHk fun h => { h with remote := (List.range 8).map fun i => (vals[i]?).map fun v => (v, s.time) }
  | some (.adcTrim rows) => s.modHk fun h => { h with trim := rows }
  | _ => s

/-- A whole message of a class acts (R43). Messages of the peer act through rows of their own, and the control and bulk traffic of a
command in the command's step (log 107). -/
def State.message (s : State) (d : LinkDir) (cls : Nat) (b : Bytes) : State :=
  match d, cls with
  | .fc, 0 => (s.perfEvent 5 0x13).class0Num .fc (leAt b 2 2) (leAt b 0 1) (leAt b 1 1) (leAt b 4 1)
  | .cf, 0 => (s.perfEvent 5 0x13).class0Num .cf (leAt b 2 2) (leAt b 0 1) (leAt b 1 1) (leAt b 4 1)
  | .fc, 1 | .fc, 2 => s.messageC b
  | .cf, 1 | .cf, 2 => s.messageF b
  | _, _ => s

/-- A good data flit is acknowledged, in sequence or not (R44). -/
def LinkSide.good (k : LinkSide) : LinkSide := { k with unacked := k.unacked + 1 }

/-- A good data flit in sequence: its payload joins the open message of its class, which SOM starts and EOM ends. -/
def State.dataFlit (s : State) (d : LinkDir) (flit : BitVec 256) : State :=
  let v := flit.toNat
  let c := flitClass v
  let body := (if flitSom v then [] else (s.side d).partials.getD c []) ++ flitPayload v
  let s := s.modSide d fun k =>
    { k with
      rxSeq := (flitSeq v + 1) % 256
      partials := k.partials.set c (if flitEom v then [] else body) }
  if flitEom v then s.message d c body else s

/-- The receiver of a direction sends a link flit, 1 ACK or 2 NAK, which the transmitter beside it carries. -/
def State.answer (s : State) (d : LinkDir) (code seq : Nat) : State :=
  (s.modSide d fun k => { k with sent := some (code, seq) }).modSide (oppositeDir d) fun k => k.noteFlits s.time 1

/-- LINK_FLIT_RECEIVED (R44): a flit that fails its CRC is discarded and a NAK goes out with the expected SEQ; a good
one is acknowledged; what it carries is taken in sequence only, so the second copy of a flit that was resent acts no more (log 101). -/
def execLinkFlitReceived (t : Time) (d : LinkDir) (flit : BitVec 256) (s : State) : Host.Outcome State Fault Refusal :=
  let s := s.advance t
  let v := flit.toNat
  if !s.linkUp d then .next s
  else
    let s := if d = .fc then s.perfEvent 5 0x10 else s
    if !flitGood v then
      let s := s.bump (crcParam d)
      let s := if d = .cf then s.perfEvent 3 0x12 else s
      .next (s.answer d 2 (s.side d).rxSeq)
    else if flitLink v then .next (s.linkFlit d v)
    else
      let taken := if flitSeq v = (s.side d).rxSeq then s.dataFlit d flit else s
      .next (taken.modSide d LinkSide.good)

/-- LINK_ACK_TIMER (R44): good flits are acknowledged at least once every 256 ns, while the link is up (R46). -/
def execLinkAckTimer (t : Time) (d : LinkDir) (s : State) : Host.Outcome State Fault Refusal :=
  let s := s.advance t
  if (s.side d).unacked = 0 || !s.linkUp d then .next s
  else .next ((s.modSide d fun k => { k with unacked := 0 }).answer d 1 (((s.side d).rxSeq + 255) % 256))

/-- LINK_ACK_TIMEOUT (R44): 2 µs without an ACK. -/
def execLinkAckTimeout (t : Time) (d : LinkDir) (s : State) : Host.Outcome State Fault Refusal :=
  let s := s.advance t
  let due := match (s.side d).replay with
    | e :: _ => decide (e.2 + 2000 ≤ s.time)
    | [] => false
  if due && s.linkUp d then .next (s.replay d) else .next s

/-- LINK_REPLAY_WINDOW (R46): a new 1 ms window of the time base has started. -/
def execLinkReplayWindow (t : Time) (d : LinkDir) (s : State) : Host.Outcome State Fault Refusal :=
  let s := s.advance t
  if (s.side d).windowAt < windowOf s.time then .next (s.modSide d fun k => { k with window := 0, windowAt := windowOf s.time })
  else .next s

/-- The bytes that a tap's sample buffer takes in while a retrain lasts, against its 1 KiB (R48): two bytes a sample, TCLK's rate
for an analog tile, a line in 10 µs over eight virtual taps for a digital one. -/
def State.overflows (s : State) (t : Tile) : Bool :=
  let per := if s.isDigital t then s.lineWords t / 8 else s.tapSamples t
  10240000 < 2 * per * (s.time - s.links.retrainAt)

/-- Row r of a tile crosses the sample buffers within the present retrain: an analog row in its slot, a digital line from the one
before it until it is whole, whenever it comes. -/
def State.inRetrain (s : State) (ts : Time) (t : Tile) (r : Nat) : Bool :=
  if s.isDigital t then
    let d := (s.tile t).dig
    match d.times[r]? with
    | some done => decide (s.links.retrainAt < done)
    | none => r == d.lines && d.fv && d.seen && !d.dropped
  else decide (s.slotAt ts r < s.time) && decide (s.links.retrainAt < s.slotAt ts (r + 1))

/-- A row can lose samples in the present retrain: it is a row of the frame that an enabled tile of this device gives, it is not
missing already, it crosses the buffers meanwhile, and they overflow. -/
def State.losable (s : State) (f : Frame) (t : Tile) (r : Nat) : Bool :=
  let k := f.tile t
  k.enabled && k.own && r < s.tileRows t && !k.missing.contains r && !k.dropped r && s.inRetrain f.ts t r && s.overflows t

/-- A row that a retrain lost, as tile x 65536 + row (R48). Its marked samples have been converted (R98). -/
def State.loseRow (s : State) (e : Nat) : State :=
  match allTiles[e / 65536]?, s.reading with
  | some t, some f =>
    if s.losable f t (e % 65536) then
      let mine (k : SlotRow) : Bool := k.tile == t.val && k.row == e % 65536
      let lost := s.seq.sampling.filter mine
      let s : State := { s with seq := { s.seq with sampling := s.seq.sampling.filter fun k => !mine k } }
      let s := lost.foldl (fun s k => s.noteMarked t (k.converted s.time)) s
      (s.missRow f.num t (e % 65536)).bump .glnLostRowsCnt
    else s
  | _, _ => s

/-- The rows named as lost, at most 3 for each tile. -/
def lostRows (lost : List Nat) : List Nat :=
  (List.range 8).flatMap fun t => ((lost.filter fun e => e / 65536 == t).eraseDups).take 3

/-- The guyline is down (R49, R282): a die fault on both wires, and the commands whose path it was fail. -/
def State.guylineDown (s : State) : State :=
  let s : State := { s with links := { s.links with gln := .down } }
  let s := (s.modSide .fc fun k => { k with queue := [], replay := [] }).modSide .cf fun k => { k with queue := [], replay := [] }
  let s := ((s.raise0 .fc 3 1 0).raise0 .cf 2 1 0).dieFault 1
  let s : State :=
    { s with
      nv := { s.nv with waiting := [] }, act := if s.act == .committing then .none else s.act
      sec := { s.sec with dl := if (s.findCmd fun _ c => c.wait matches .download _ _ _).isSome then none else s.sec.dl } }
  s.completeWhere fun x c => match c.wait with
    | .nv _ _ | .nvQueued _ | .nvRead _ | .calNv _ | .transfer _ _ | .download _ _ _ | .peg _ _ => some (.failedFault, 0)
    | _ => if (s.pegOf x).isSome then some (.failedFault, 0) else none

/-- Transmission resumes from the oldest unacknowledged flit (R46). -/
def LinkSide.resend (k : LinkSide) (now : Time) : LinkSide :=
  { k.noteFlits now k.replay.length with replay := k.replay.map fun e => (e.1, now) }

/-- LINK_RETRAIN_DONE (R47 to R49): the lanes that trained, F to C and C to F, or in and out on the Vexnex link, and the rows lost.
The Vexnex link runs only at full width (R325); a pair board outside a pair tries again after a failed training, and a link that
was down comes up with both ends at the start (log 30). Until the image runs and during a thermal shutdown it stays down (Table 12.7). -/
def execLinkRetrainDone (t : Time) (d : LinkDir) (lanesIn lanesOut : Nat) (lost : List Nat) (s : State) :
    Host.Outcome State Fault Refusal :=
  let s := s.advance t
  match d with
  | .vx =>
    if s.boot != .running || s.thm.shutdown || s.links.vxState == .up
        || (s.links.vxState == .down && (s.pair.mode == .single || s.pair.mode == .paired)) then .next s
    else if 8 ≤ lanesIn && 8 ≤ lanesOut then
      let again := s.links.vxState == .retraining
      let s : State := { s with links := { s.links with vxState := .up } }
      .next ((s.modSide .vx fun k => if again then k.resend s.time else .reset).pump .vx)
    else .next { s with links := { s.links with vxState := .down } }
  | _ =>
    if s.links.gln != .retraining then .next s
    else
      let s := (lostRows lost).foldl State.loseRow s
      if 8 ≤ lanesIn && 2 ≤ lanesOut then
        let s : State := { s with links := { s.links with
          gln := .up, failed := 0, width := (if 16 ≤ lanesIn then 4 else 3) + 16 * (if 4 ≤ lanesOut then 4 else 2) } }
        .next ((((s.modSide .fc fun k => k.resend s.time).modSide .cf fun k => k.resend s.time).pump .fc).pump .cf)
      else
        let n := s.links.failed + 1
        let s : State := { s with links := { s.links with failed := n } }
        .next (if n < 3 then s.bump .glnRetrainCnt else s.guylineDown)

/-! Class-0 events (R50 to R52). -/

/-- The oldest word that waits on a wire has been sent (R50). -/
def State.wordSent (s : State) : Wire → State
  | .fc => { s with links := { s.links with wordsFC := s.links.wordsFC.drop 1 } }
  | .cf => { s with links := { s.links with wordsCF := s.links.wordsCF.drop 1 } }

/-- SIDEBAND_WORD_RECEIVED (R50, R51): SEQ s stands for event E + ((s - E) mod 16). -/
def execSidebandWordReceived (t : Time) (w : Wire) (word : BitVec 20) (s : State) : Host.Outcome State Fault Refusal :=
  let s := (s.advance t).wordSent w
  let v := word.toNat
  if !sidebandOk w v then .next (s.bump .glnSbErrCnt)
  else
    let low := (s.acted w).1
    let k := (bitsOf v 14 11 + 16 - low % 16) % 16
    .next (s.class0 w k (bitsOf v 4 1) (bitsOf v 10 5) (s.raisedCause w ((low + k) % 65536)))

/-- CLASS0_MESSAGE (R50): the lane copy of an event, by its number; the lanes carry it while they are up. -/
def execClass0Message (t : Time) (w : Wire) (num : BitVec 16) (code : BitVec 4) (detail : BitVec 6) (cause : Nat) (s : State) :
    Host.Outcome State Fault Refusal :=
  let s := s.advance t
  if s.linkUp (laneOf w) then .next ((s.perfEvent 5 0x13).class0Num w num.toNat code.toNat detail.toNat cause) else .next s

end Sys2Proof.Machine
end

