-- ==== Sys2Proof/Machine/PegPorts.lean ====
section
/-!
DEFINITION. The peg ports: master transfers and the slave byte path (chapter 13, R391 to R397, R260).
-/
namespace Sys2Proof.Machine

/-! Master mode (R392 to R394). -/

/-- The steps of a transfer begin: SEL carries the select code, and SEL_EN follows (Table 13.8). The transfer keeps its setup to its end
(R391). -/
def State.pegBegin (s : State) (n code len : Nat) : State :=
  let s : State := { s with pins := { s.pins with sel := code, selEn := some s.time } }
  s.modPeg n fun k => { k with xfer := some (code, len), held := some (s.par .pegCfg n), queued := none, status := 2, bytes := 0 }

/-- The bits of a byte in the order of the wire, the first one in [7], or the byte that such bits spell: the most significant bit goes
first, unless PEG_CFG[15] is set (R391; log 133). -/
def State.pegBits (s : State) (n : Nat) (b : Byte) : Byte :=
  if bitOf (s.pegSetup n) 15 then BitVec.ofNat 8 (maskOf (bitsMsb 8 b.toNat)) else b

/-- Byte k of PEG_TX[n] (Table 13.10). -/
def State.pegTx (s : State) (n k : Nat) : Byte := BitVec.ofNat 8 (s.par .pegTx (8 * n + k / 4) / 256 ^ (k % 4))

/-- A write of PEG_XFER[n] (R393); while the other port holds SEL the transfer waits (R392). -/
def State.pegXfer (s : State) (n v : Nat) : State × Status :=
  let code := v % 16
  let len := bitsOf v 9 4
  let k := s.peg n
  if code = 15 || len = 0 || 32 < len then (s, .badParam)
  else if s.pegSlave n || k.xfer.isSome || k.queued.isSome then (s, .busy)
  else if (s.peg (1 - n)).xfer.isSome then
    (s.modPeg n fun k => { k with queued := some (code, len), status := 2, bytes := 0 }, .done)
  else (s.pegBegin n code len, .done)

/-- PEG_XFER_WRITE (R393). -/
def execPegXferWrite (t : Time) (n : Fin 2) (v : BitVec 10) (s : State) : Host.Outcome State Fault Refusal :=
  let s := s.advance t
  if !s.fdieUp then .next { s with wstatus := .failedFault }
  else
    let r := (s.valueAcross (Param.pegXfer.id n) v.toNat).pegXfer n v.toNat
    .next { r.1 with wstatus := r.2 }

/-- PEG_PRDY_HIGH (Table 13.8 steps 3 to 5): the next byte is clocked. PEG_TX goes out in the port's clock mode and bit order, and the
bits rx are received at the same time (R391, R393). -/
def execPegPrdyHigh (t : Time) (n : Fin 2) (rx : Byte) (s : State) : Host.Outcome State Fault Refusal :=
  let s := s.advance t
  match (s.peg n).xfer with
  | some (code, len) =>
    let k := (s.peg n).bytes
    if k < len then
      let tx := s.pegTx n k
      .next (({ s with out := s.out ++ [.pegByte n code (bitsOf (s.pegSetup n) 2 1) (s.pegBits n tx)] } : State).modPeg n fun g =>
        { g with rx := g.rx.set k (s.pegBits n rx), bytes := k + 1, lastTx := s.pegBits n tx })
    else .next s
  | none => .next s

/-- PEG_PRDY_TIMEOUT (R394): the transfer ends at this byte; its last two steps follow. -/
def execPegPrdyTimeout (t : Time) (n : Fin 2) (s : State) : Host.Outcome State Fault Refusal :=
  let s := s.advance t
  match (s.peg n).xfer with
  | some (code, len) =>
    if (s.peg n).bytes < len && s.par .pegRdyTmo n ≠ 0 then
      .next ((s.modPeg n fun k => { k with xfer := some (code, k.bytes), status := 1 }).bump .pegRdyToCnt n)
    else .next s
  | none => .next s

/-- The PARAM_WRITE commands that started a transfer of a port wait for one port less, and complete with the last (R393). -/
def State.pegWaits (s : State) (n : Nat) : State :=
  let less (w : Wait) : Wait :=
    match w with
    | .peg ports result => .peg (ports - if bitOf ports n then 2 ^ n else 0) result
    | _ => w
  let s : State :=
    { s with ctxs := s.ctxs.map fun k => { k with inflight := k.inflight.map fun c => { c with wait := less c.wait } } }
  s.completeWhere fun _ c => match c.wait with
    | .peg ports result => if ports = 0 then some (.done, result) else none
    | _ => none

/-- PEG_TRANSFER_DONE (Table 13.8 steps 6 and 7): SEL is idle, the PARAM_WRITE completes, and a waiting transfer of the other
port begins. -/
def execPegTransferDone (t : Time) (n : Fin 2) (s : State) : Host.Outcome State Fault Refusal :=
  let s := s.advance t
  match (s.peg n).xfer with
  | some (_, len) =>
    if (s.peg n).bytes < len then .next s
    else
      let s : State := { s with pins := { s.pins with sel := 15, selEn := none } }
      let s := s.modPeg n fun k => { k with xfer := none, held := none, status := if k.status = 2 then 0 else k.status }
      let s := s.pegWaits n
      match (s.peg (1 - n.val)).queued with
      | some (code, len) => .next (s.pegBegin (1 - n.val) code len)
      | none => .next s
  | none => .next s

/-! Slave mode (R260, R395 to R397). -/

/-- The context that a port serves. -/
def State.pegContext (s : State) (n : Nat) : Option Ctx := allCtx.find? fun x => s.bindingOf x == 9 + n

/-- HOST_REJECT_CNT counts a frame that the port's context turned away. -/
def State.pegReject (s : State) (n : Nat) : State :=
  match s.pegContext n with
  | some x => s.bump .hostRejectCnt x
  | none => s

/-- The context reads some of what stands in the FIFO: how much by an instant is a free value (R395, log 2). -/
def State.pegRead (s : State) (n : Nat) : State :=
  let v := s.takeFree 10
  v.2.modPeg n fun k => { k with rxFrame := k.rxFrame ++ k.rxFifo.take v.1, rxFifo := k.rxFifo.drop v.1 }

/-- A received byte: the FIFO takes it, or it is discarded; each one that finds the FIFO full counts (R395). A frame of an unassigned type
is discarded to its release. What the context discards does not fill the FIFO (log 148). -/
def State.pegReceive (s : State) (n : Nat) (rx : Byte) : State :=
  let k := s.peg n
  let idle := k.rxFifo.isEmpty && k.rxFrame.isEmpty
  if 512 ≤ k.rxFifo.length then
    let s := (s.bump .pegRxOvfCnt n).modPeg n fun k => { k with discard := true }
    s.setPar .pegStatus n (s.par .pegStatus n ||| 2)
  else if k.discard then s
  else if idle && rx = 0xFF then s
  else if idle && !([0xC0, 0xD1, 0xD2].contains rx) then s.modPeg n fun k => { k with discard := true }
  else s.modPeg n fun k => { k with rxFifo := k.rxFifo ++ [rx] }

/-- The byte that goes out at the same time, its bits in the port's order (R391): 0xFF between frames; within a read-data frame beyond its
first 256 bytes the next byte may not be ready, which is a free choice of the memory path, and the last byte is sent again (R396, log 2).
-/
def State.pegTransmit (s : State) (n : Nat) : State :=
  let k := s.peg n
  match k.txFrames with
  | [] => s.modPeg n fun k => { k with lastTx := 0xFF }
  | f :: rest =>
    let v := s.takeFree 1
    if f.head? = some 0xD2 && 256 ≤ k.txPos && v.1 = 1 then
      let s := (v.2.bump .pegUnderrunCnt n).perfEvent 4 0x13
      s.setPar .pegStatus n (s.par .pegStatus n ||| 1)
    else
      let s := v.2.modPeg n fun k => { k with lastTx := s.pegBits n (f.getD k.txPos 0xFF), txPos := k.txPos + 1 }
      if f.length ≤ k.txPos + 1 then
        { s.modPeg n fun k => { k with txFrames := rest, txPos := 0 } with out := s.out ++ [.pegFrame (portFin n) f] }
      else s

/-- PEG_SLAVE_BYTE (R391, R395, R396): the bits rx come in as the next byte goes out. -/
def execPegSlaveByte (t : Time) (n : Fin 2) (rx : Byte) (s : State) : Host.Outcome State Fault Refusal :=
  let s := s.advance t
  if s.pegSlave n && (s.peg n).selected then .next (((s.pegRead n).pegReceive n (s.pegBits n rx)).pegTransmit n) else .next s

/-- PEG_SS_N_RISE (R397, R260): an incomplete or discarded frame counts in HOST_REJECT_CNT. -/
def execPegSsNRise (t : Time) (n : Fin 2) (s : State) : Host.Outcome State Fault Refusal :=
  let s := s.advance t
  let k := s.peg n
  let bad := k.discard || !k.rxFifo.isEmpty || !k.rxFrame.isEmpty
  let s := s.modPeg n fun k => { k with selected := false, discard := false, rxFifo := [], rxFrame := [], txPos := 0 }
  .next (if bad then s.pegReject n else s)

/-- PEG_SS_N_FALL (R397): the port is selected, and an interrupted frame starts again from its first byte. -/
def execPegSsNFall (t : Time) (n : Fin 2) (s : State) : Host.Outcome State Fault Refusal :=
  let s := s.advance t
  if s.pegSlave n then .next (s.modPeg n fun k => { k with selected := true, txPos := 0, rxFifo := [], rxFrame := [], discard := false })
  else .next s

end Sys2Proof.Machine
end

