-- ==== Sys2Proof/Machine/HostPort.lean ====
section
/-!
DEFINITION. The transports: ring doorbells and registers, interrupts, the data port and peg frames (chapter 9, R260 to R266,
R292, R293), and the data commands (R275).
-/
namespace Sys2Proof.Machine

/-- The BARs of a context's function can be reached: the context is bound to PCIe, and the link is up. -/
def State.barUp (s : State) (x : Ctx) : Bool := s.onPcie x && s.pcieUp

/-! Rings (R262 to R266, Table 9.5). -/

/-- Entries between two indexes of a ring, going up. -/
def ringSpan (size a b : Nat) : Nat := (b + size - a) % size

/-- A doorbell write that reaches the device is counted (Table 14.1). -/
def State.doorbell (s : State) (x : Ctx) : State := if s.barUp x then s.perfEvent 12 0x13 else s

/-- SQ_TAIL_DOORBELL (R263): slots holds the ring contents from the old tail to the new one. -/
def execSqTailDoorbell (t : Time) (x : Ctx) (tail : Nat) (slots : Bytes) (s : State) : Host.Outcome State Fault Refusal :=
  let s := (s.advance t).doorbell x
  let c := s.ctx x
  if !s.barUp x || !c.ringsOn || c.fetchStop then .next s
  else if c.sq.size ≤ tail then .next (s.ringError x 2)
  else
    let n := ringSpan c.sq.size c.sq.tail tail
    .next ((s.modCtx x fun k =>
      { k with sq := { k.sq with tail }, sqSlots := k.sqSlots ++ padTo (32 * n) slots }).fetchRing x)

/-- Entries that a head doorbell frees; at a ring full of unread entries an unchanged index frees all (log 27). -/
def freedBy (r : Ring) (head held : Nat) : Nat :=
  let n := ringSpan r.size r.head head
  min held (if n = 0 && held = r.size then held else n)

/-- CQ_HEAD_DOORBELL (R264). -/
def execCqHeadDoorbell (t : Time) (x : Ctx) (head : Nat) (s : State) : Host.Outcome State Fault Refusal :=
  let s := (s.advance t).doorbell x
  let c := s.ctx x
  if !s.barUp x || !c.ringsOn then .next s
  else if c.cq.size ≤ head then .next (s.ringError x 2)
  else
    .next ((s.modCtx x fun k =>
      { k with cq := { k.cq with head }, replies := k.replies.drop (freedBy c.cq head c.replies.length) }).fetchRing x)

/-- EQ_HEAD_DOORBELL (R265): a pending EVENTS_LOST record is written as soon as an entry is free. -/
def execEqHeadDoorbell (t : Time) (x : Ctx) (head : Nat) (s : State) : Host.Outcome State Fault Refusal :=
  let s := (s.advance t).doorbell x
  let c := s.ctx x
  if !s.barUp x || !c.ringsOn then .next s
  else if c.eq.size ≤ head then .next (s.ringError x 2)
  else
    .next ((s.modCtx x fun k =>
      { k with eq := { k.eq with head }, events := k.events.drop (freedBy c.eq head c.events.length) }).flushLost x)

/-- A base is 64-byte aligned and a size is a power of two in its range. -/
def ringOk (r : Ring) (lo hi : Nat) : Bool :=
  r.base % 64 == 0 && decide (lo ≤ r.size) && decide (r.size ≤ hi) && 2 ^ r.size.log2 == r.size

def Context.ringsOk (c : Context) : Bool := ringOk c.sq 64 4096 && ringOk c.cq 64 4096 && ringOk c.eq 16 1024

def Ring.start (r : Ring) : Ring := { r with head := 0, tail := 0, phase := true }

/-- RING_ENABLE (R262). A CONTEXT_RESET held since an FLR or hot reset becomes the first event, with SEQ 0 (R259). -/
def State.enableRings (s : State) (x : Ctx) : State :=
  let held := (s.ctx x).heldReset
  let s := s.modCtx x fun k =>
    { k with
      ringsOn := true, ringErr := 0, fetchStop := false, busOff := false, sq := k.sq.start, cq := k.cq.start, eq := k.eq.start
      evtSeq := 0, sqSlots := [], replies := [], events := [], lost := none, heldReset := none }
  match held with
  | some (code, at_) => s.eventAt x 0x0003 (leBytes 1 code) at_
  | none => s

def execRingEnable (t : Time) (x : Ctx) (s : State) : Host.Outcome State Fault Refusal :=
  let s := s.advance t
  let c := s.ctx x
  if !s.barUp x || (c.ringsOn && !c.fetchStop) then .next s
  else if !c.ringsOk then .next (s.ringError x 1)
  else .next (s.enableRings x)

/-- RING_DISABLE (R262): refused while a command is in flight. -/
def execRingDisable (t : Time) (x : Ctx) (s : State) : Host.Outcome State Fault Refusal :=
  let s := s.advance t
  if !s.barUp x then .next s
  else if (s.ctx x).inflight.isEmpty then .next (s.modCtx x fun k => { k with ringsOn := false, sqSlots := [] })
  else .next (s.ringError x 4)

/-- RING_DMA_ERROR (Table 9.5, cause 3). -/
def execRingDmaError (t : Time) (x : Ctx) (s : State) : Host.Outcome State Fault Refusal :=
  let s := s.advance t
  if s.onPcie x && (s.ctx x).ringsOn then .next (s.ringError x 3) else .next s

/-- A write to a BAR register without behaviour of its own: bases and sizes only while the rings are disabled, IRQ_STATUS and
DP_STATUS write 1 to clear (Tables 9.5 and 9.21). -/
def Context.barWrite (k : Context) (r : BarReg) (v : Nat) : Context :=
  match r with
  | .irqStatus => { k with irqStatus := k.irqStatus &&& ~~~ BitVec.ofNat 3 v }
  | .irqMask => { k with irqMask := BitVec.ofNat 3 v }
  | .dpAddr => { k with dpAddr := v % 2 ^ 64 }
  | .dpStatus => { k with dpStatus := k.dpStatus &&& ~~~ BitVec.ofNat 2 v }
  | r =>
    if k.ringsOn then k
    else match r with
      | .sqBase => { k with sq := { k.sq with base := v } }
      | .sqSize => { k with sq := { k.sq with size := v % 2 ^ 13 } }
      | .cqBase => { k with cq := { k.cq with base := v } }
      | .cqSize => { k with cq := { k.cq with size := v % 2 ^ 13 } }
      | .eqBase => { k with eq := { k.eq with base := v } }
      | _ => { k with eq := { k.eq with size := v % 2 ^ 11 } }

/-- BAR_REGISTER_WRITE. -/
def execBarRegisterWrite (t : Time) (x : Ctx) (r : BarReg) (v : BitVec 64) (s : State) : Host.Outcome State Fault Refusal :=
  let s := s.advance t
  if s.barUp x then .next (s.modCtx x fun k => k.barWrite r v.toNat) else .next s

/-- IRQ_HOLDOFF_EXPIRY (R266): HOST_IRQ_MOD microseconds after the vector was raised; one held back is raised now. -/
def execIrqHoldoffExpiry (t : Time) (x : Ctx) (vec : Fin 2) (s : State) : Host.Outcome State Fault Refusal :=
  let s := s.advance t
  let bit : BitVec 2 := BitVec.ofNat 2 (2 ^ vec.val)
  if (s.ctx x).irqHold &&& bit = 0 || s.irqHeld x vec.val then .next s
  else
    let back := (s.ctx x).irqBack &&& bit
    let s := s.modCtx x fun c => { c with irqHold := c.irqHold &&& ~~~ bit, irqBack := c.irqBack &&& ~~~ bit }
    .next (if back = 0 then s else s.vector x vec)

/-! The data port (R292, R293). -/

/-- A data port access is refused: DP_STATUS[0], or both bits beyond memory, and a count (R293, Table 9.21). -/
def State.dpRefuse (s : State) (x : Ctx) (st : Status) : State :=
  (s.modCtx x fun k => { k with dpStatus := k.dpStatus ||| (if st = .badParam then 3 else 1) }).bump .hostDpRefuseCnt x

/-- Why a data port access of n bytes at a is refused, if it is. -/
def State.dpReadStop (s : State) (x : Ctx) (a n : Nat) : Option Status :=
  if s.boot != .running || !s.isAuth x || !s.permits x 0x5001 .v || a % 4 ≠ 0 then some .notPermitted else s.readRefusal x a n

def State.dpWriteStop (s : State) (x : Ctx) (a n : Nat) : Option Status :=
  if s.boot != .running || !s.isAuth x || !s.permits x 0x5002 .o || a % 4 ≠ 0 then some .notPermitted else s.writeRefusal x a n

/-- One word access at an address. -/
def State.dpAccess (s : State) (x : Ctx) (a : Nat) : DpAccess → State
  | .read =>
    match s.dpReadStop x a 4 with
    | some st => { (s.dpRefuse x st) with out := s.out ++ [.busRead x 0xFFFFFFFF] }
    | none => { (s.countAccess a 4 false) with out := s.out ++ [.busRead x (BitVec.ofNat 32 (leNat (s.deviceBytes a 4)))] }
  | .write w =>
    match s.dpWriteStop x a 4 with
    | some st => s.dpRefuse x st
    | none => (s.countAccess a 4 true).writeMem a (leBytes 4 w.toNat)

/-- DP_DATA_ACCESS: DP_ADDR advances by 4. -/
def execDpDataAccess (t : Time) (x : Ctx) (a : DpAccess) (s : State) : Host.Outcome State Fault Refusal :=
  let s := s.advance t
  if s.barUp x then
    .next ((s.dpAccess x (s.ctx x).dpAddr a).modCtx x fun k => { k with dpAddr := (k.dpAddr + 4) % 2 ^ 64 })
  else .next s

/-- DP_BURST_ACCESS: offset off of the 4 KiB window, and DP_ADDR stays. -/
def execDpBurstAccess (t : Time) (x : Ctx) (off : Nat) (a : DpAccess) (s : State) : Host.Outcome State Fault Refusal :=
  let s := s.advance t
  if s.barUp x then .next (s.dpAccess x ((s.ctx x).dpAddr + off % 4096) a) else .next s

/-! Peg frames (R260, R261, Table 9.4). -/

/-- A frame that the context has read is taken out of what has come, with the idle bytes behind it. -/
def Peg.take (k : Peg) (frame : Bytes) : Peg :=
  let all := k.rxFrame ++ k.rxFifo
  if all.take frame.length = frame then { k with rxFrame := (all.drop frame.length).dropWhile (· == 0xFF), rxFifo := [] } else k

/-- A whole frame is taken from a port; it crosses the guyline to the context (R18, R43). -/
def State.takeFrame (s : State) (n : Nat) (frame : Bytes) : State :=
  (s.modPeg n fun k => k.take frame).sendAcross .fc (.pegBytes n frame)

/-- PEG_COMMAND_FRAME: the type byte, a header and its inline bytes. A frame of another length is incomplete (R397). -/
def execPegCommandFrame (t : Time) (n : Fin 2) (frame : Bytes) (s : State) : Host.Outcome State Fault Refusal :=
  let s := (s.advance t).takeFrame n frame
  let h := parseHeader (frame.drop 1)
  match s.pegContext n with
  | none => .next s
  | some x =>
    if !s.hostUp || !s.fdieUp then .next s
    else if frame.head? ≠ some 0xC0 || frame.length ≠ 33 + h.inlineLen then .next (s.pegReject n)
    else .next (s.fetchCommand x h (frame.drop 33))

/-- A count of bytes of a data-port frame. -/
def pegCountOk (n : Nat) : Bool := n % 4 == 0 && within 4 4096 n

/-- PEG_DATA_WRITE_FRAME. -/
def execPegDataWriteFrame (t : Time) (n : Fin 2) (addr : Nat) (data : Bytes) (s : State) : Host.Outcome State Fault Refusal :=
  let s := (s.advance t).takeFrame n (0xD1 :: leBytes 5 addr ++ leBytes 2 data.length ++ data)
  match s.pegContext n with
  | none => .next s
  | some x =>
    if !s.fdieUp then .next s
    else if !pegCountOk data.length then .next (s.pegReject n)
    else match s.dpWriteStop x addr data.length with
      | some st => .next (s.dpRefuse x st)
      | none => .next ((s.countAccess addr data.length true).writeMem addr data)

/-- PEG_DATA_READ_FRAME: the read-data frame is 0xD2 and the bytes, all ones where the access is refused. -/
def execPegDataReadFrame (t : Time) (n : Fin 2) (addr count : Nat) (s : State) : Host.Outcome State Fault Refusal :=
  let s := (s.advance t).takeFrame n (0xD2 :: leBytes 5 addr ++ leBytes 2 count)
  match s.pegContext n with
  | none => .next s
  | some x =>
    if !s.fdieUp then .next s
    else if !pegCountOk count then .next (s.pegReject n)
    else match s.dpReadStop x addr count with
      | some st => .next ((s.dpRefuse x st).pegSend n (0xD2 :: List.replicate count 0xFF))
      | none => .next ((s.countAccess addr count false).pegSend n (0xD2 :: s.deviceBytes addr count))

/-! DATA_READ and DATA_WRITE (R275). -/

/-- A data command of the table that is under way between two of its transfers (R272). -/
def State.midTransfer (s : State) (x : Ctx) (tag : BitVec 11) (op : Nat) : Option (Cmd × Nat) :=
  match (s.ctx x).inflight.find? fun c => c.tag % 2048 == tag.toNat && c.opcode == op with
  | some c => match c.wait with
    | .moving k => if s.coreRuns x && s.hostUp then some (c, k) else none
    | _ => none
  | none => none

/-- A transfer of a data command that moves n bytes in all has brought it to byte k: it completes, or waits for the next (R272). -/
def State.transferred (s : State) (x : Ctx) (c : Cmd) (k n : Nat) : State :=
  if k < n then s.await x c (.moving k) else s.complete x c .done n

/-- The range that the 12 inline bytes name is well formed. -/
def dataRangeOk (a n : Nat) : Bool := a % 4 == 0 && n % 4 == 0 && within 4 268435456 n

/-- The transfer of a DATA_READ from byte k on: at most 4 KiB. -/
def State.readOn (s : State) (x : Ctx) (c : Cmd) (k : Nat) : State :=
  let a := leAt c.payload 0 8
  let n := leAt c.payload 8 4
  let m := min 4096 (n - k)
  ((s.countAccess (a + k) m false).sgWriteAt x c k (s.deviceBytes (a + k) m)).transferred x c (k + m) n

/-- DATA_READ starts. -/
def State.dataRead (s : State) (x : Ctx) (c : Cmd) (sg : Nat) : State :=
  let a := leAt c.payload 0 8
  let n := leAt c.payload 8 4
  if c.payload.length ≠ 12 || !dataRangeOk a n || s.sgLength x c sg ≠ n then s.complete x c .badParam
  else match s.readRefusal x a n, s.areaStop x c false with
    | some st, _ => s.complete x c st
    | none, some st => s.complete x c st
    | none, none => s.readOn x c 0

/-- DATA_READ (R272, R275): the command starts, or one under way moves its next 4 KiB (log 111). -/
def execDataRead (t : Time) (x : Ctx) (tag : BitVec 11) (sg : Nat) (s : State) : Host.Outcome State Fault Refusal :=
  match (s.advance t).midTransfer x tag 0x5001 with
  | some (c, k) => .next ((s.advance t).readOn x c k)
  | none => .next (s.command t x tag 0x5001 fun s c => s.dataRead x c sg)

/-- The transfer of a DATA_WRITE from byte k on: at most 4 KiB of its data, which stand inline or in the scatter area. -/
def State.writeOn (s : State) (x : Ctx) (c : Cmd) (area : Bytes) (k : Nat) : State :=
  let a := leAt c.payload 0 8
  let n := leAt c.payload 8 4
  let m := min 4096 (n - k)
  let data := if c.payload.length = 12 + n then c.payload.drop 12 else padTo n (s.sgRead x c area)
  ((s.countAccess (a + k) m true).writeMem (a + k) (sliceB k m data)).transferred x c (k + m) n

/-- DATA_WRITE starts. -/
def State.dataWrite (s : State) (x : Ctx) (c : Cmd) (area : Bytes) : State :=
  let a := leAt c.payload 0 8
  let n := leAt c.payload 8 4
  let inline_ := c.payload.length == 12 + n
  let whole := inline_ || (c.payload.length == 12 && s.sgLength x c area.length == n)
  if !dataRangeOk a n || !whole then s.complete x c .badParam
  else match s.writeRefusal x a n, (if inline_ then none else s.areaStop x c true) with
    | some st, _ => s.complete x c st
    | none, some st => s.complete x c st
    | none, none => s.writeOn x c area 0

/-- DATA_WRITE (R272, R275). -/
def execDataWrite (t : Time) (x : Ctx) (tag : BitVec 11) (area : Bytes) (s : State) : Host.Outcome State Fault Refusal :=
  match (s.advance t).midTransfer x tag 0x5002 with
  | some (c, k) => .next ((s.advance t).writeOn x c area k)
  | none => .next (s.command t x tag 0x5002 fun s c => s.dataWrite x c area)

end Sys2Proof.Machine
end

