-- ==== Sys2Proof/Machine/Commands.lean ====
section
/-!
DEFINITION. NOP, GET_INFO, GET_RECOVERY and EVENT_ARM (R277, R278, R291).
-/
namespace Sys2Proof.Machine

/-- NOP carries no payload. -/
def State.nop (s : State) (x : Ctx) (c : Cmd) : State := if c.payload.isEmpty then s.complete x c .done else s.complete x c .badParam

def execNop (t : Time) (x : Ctx) (tag : BitVec 11) (s : State) : Host.Outcome State Fault Refusal :=
  .next (s.command t x tag 0x0001 fun s c => s.nop x c)

/-- The info record of Table 9.13. -/
def State.infoRecord (s : State) (x : Ctx) : Bytes :=
  leBytes 4 (s.infoWord x) ++ leBytes 2 0x9630 ++ leBytes 2 1 ++ leBytes 4 s.fwVersion ++ leBytes 2 s.mem.gib
    ++ leBytes 1 (x.val + 8 * s.bindingOf x) ++ leBytes 1 (s.roleOf x) ++ devId ++ leBytes 2 (s.par .hostTagBase x)
    ++ leBytes 2 (s.par .hostTagCount x) ++ List.replicate 28 0

/-- GET_INFO (R277): the record is written if there is a scatter list. -/
def State.getInfo (s : State) (x : Ctx) (c : Cmd) (sg : Nat) : State :=
  if !c.payload.isEmpty then s.complete x c .badParam
  else if c.sgEntries = 0 then s.complete x c .done (s.infoWord x)
  else s.writeRecord x c sg (s.infoRecord x) (s.infoWord x)

def execGetInfo (t : Time) (x : Ctx) (tag : BitVec 11) (sg : Nat) (s : State) : Host.Outcome State Fault Refusal :=
  .next (s.command t x tag 0x0002 fun s c => s.getInfo x c sg)

/-- The recovery record of a context as an OWNER or the context itself sees it; others read zeros (R278). -/
def State.recoveryFor (s : State) (x : Ctx) (page : Bytes) (y : Ctx) : Bytes :=
  if s.roleOf x = 1 || x = y then sliceB (16 * y.val) 16 page else List.replicate 16 0

/-- GET_RECOVERY (R278): RESULT counts the valid records written. -/
def State.getRecovery (s : State) (x : Ctx) (c : Cmd) (sg : Nat) : State :=
  if !c.payload.isEmpty then s.complete x c .badParam
  else if s.links.gln == .down then s.complete x c .failedFault
  else
    let f := (s.sendAcross .cf (.nvCommand c.opcode 16 0 256)).nvFetch 16
    let recs := allCtx.map (f.2.recoveryFor x f.1)
    f.2.writeRecord x c sg recs.flatten ((recs.filter fun r => bitOf (leAt r 14 1) 0).length)

def execGetRecovery (t : Time) (x : Ctx) (tag : BitVec 11) (sg : Nat) (s : State) : Host.Outcome State Fault Refusal :=
  .next (s.command t x tag 0x0003 fun s c => s.getRecovery x c sg)

/-- What waits for the first event arm: FW_ROLLBACK and FW_TRIAL (R310, Table 10.16, log 28). -/
def State.firstArm (s : State) : State :=
  let s := match s.sec.rollback with
    | some slot =>
      (s.modSec fun k => { k with rollback := none }).devEvent 0x0A04
        (leBytes 1 slot ++ [0, 0, 0] ++ leBytes 4 (imageVersion (s.image slot)))
    | none => s
  if s.sec.trialDue then
    let s := if s.nvUp then s.nvFetchAll [fwPage] else s
    let left := s.par .secFwConfirmTime - (s.time - s.sec.bootedAt) / 1000000000
    (s.modSec fun k => { k with trialDue := false }).devEvent 0x0A05
      (leBytes 1 (s.sec.runningSlot.getD 0) ++ leBytes 1 s.trialBoots ++ leBytes 2 left)
  else s

/-- EVENT_ARM (R291): the group mask replaces the one before, which is RESULT. -/
def State.eventArm (s : State) (x : Ctx) (c : Cmd) : State :=
  let mask := leAt c.payload 0 4
  if c.payload.length ≠ 4 || 2 ^ 14 ≤ mask then s.complete x c .badParam
  else (s.modCtx x fun k => { k with evtMask := BitVec.ofNat 14 mask }).firstArm.complete x c .done (s.ctx x).evtMask.toNat

def execEventArm (t : Time) (x : Ctx) (tag : BitVec 11) (s : State) : Host.Outcome State Fault Refusal :=
  .next (s.command t x tag 0x0030 fun s c => s.eventArm x c)

end Sys2Proof.Machine
end

