-- ==== Sys2Proof/Machine/ParamRead.lean ====
section
/-!
DEFINITION. The read-only parameters, computed from the state that they show (Tables 1.4 to 14.5).
-/
namespace Sys2Proof.Machine

def TileMode.code : TileMode → Nat
  | .off => 0
  | .waking => 1
  | .biasing => 2
  | .ready => 3
  | .fault => 5

def PllState.code : PllState → Nat
  | .locked => 0
  | .coasting _ => 1
  | .switching _ _ _ => 2
  | .off => 3

/-- BIAS_STATUS of a tile (Table 2.9). -/
def TileSt.biasBits (k : TileSt) : Nat :=
  maskOf [k.vdet.settled, k.vskim.settled, k.vguard.settled, k.vdet.fault, k.vskim.fault, k.vguard.fault]

/-- AUX_STATE of a camera (Table 8.4). -/
def State.auxWord (s : State) (c : Nat) : Nat :=
  let k := s.auxCam c
  s.auxSlotState c 0 + 4 * s.auxSlotState c 1 + 16 * k.newest + (if k.valid then 64 else 0) + 65536 * k.seq

/-- HOST_CTX_STATE (Table 9.22). A peg port is active while it is selected (log 29). -/
def State.ctxState (s : State) (x : Ctx) : Nat :=
  let c := s.ctx x
  if s.bindingOf x = 0 then 0
  else if c.ringErr ≠ 0 then 4
  else if c.ringsOn || (match s.pegOf x with | some n => (s.peg n).selected | none => false) then 3
  else if s.isAuth x then 2
  else 1

/-- SEC_FW_SLOT_STATE (Table 10.15). -/
def State.slotWord (s : State) : Nat :=
  s.fwState 0 + 16 * s.fwState 1 + 256 * s.sec.runningSlot.getD 0 + 512 * (s.trialBoots % 8)

/-- NV_STATE (Table 13.9). -/
def State.nvStateCode (s : State) : Nat :=
  if s.links.gln == .down then 3 else if s.nv.running.isSome then 2 else if s.nv.buffer.isEmpty then 0 else 1

/-- NV_PW_SET: read passwords, then write passwords. -/
def State.passwordsSet (s : State) : Nat :=
  maskOf ((List.range 8).map fun r => s.password r false != noPassword)
    + 256 * maskOf ((List.range 8).map fun r => s.password r true != noPassword)

/-- Blocks SYS, CLK and THM. -/
def State.roSystem (s : State) (p : Param) (i : Nat) : Option Nat :=
  match p with
  | .tickState => some s.tick.state.code
  | .tickMeasPeriod => some (if s.tick.state = .internal then 0 else s.expected / 10)
  | .tickDiv => some (if s.tick.d2 then 2 else 1)
  | .frameNumLo => some (s.tick.frameNum % 2 ^ 32)
  | .frameNumHi => some (s.tick.frameNum / 2 ^ 32)
  | .pipeLatRows => some s.tick.latRows
  | .budgetMargin => some s.tick.margin
  | .mosaicW => some s.tick.mosaicW
  | .mosaicH => some s.tick.mosaicH
  | .glnWidth => some s.links.width
  | .glnState => some s.links.gln.code
  | .clkStraps => some (s.clk.oscSettle + 4 * s.clk.refsel)
  | .clkRcTrim => some s.clk.rcTrim
  | .clkRcErr => some (unsigned 16 s.clk.rcErr)
  | .clkState =>
    some (s.clk.pllA.code + 4 * s.clk.pllC.code + 16 * s.clk.pllM.code + (if s.clk.rcTrimmed then 64 else 0) + 128 * s.clk.srcA)
  | .thmGov => some (s.thm.gov + 4096 * s.thm.govSensor)
  | .thmStage => some (s.thm.stage + (if s.thm.warn then 4 else 0) + if s.thm.shutdown then 8 else 0)
  | .thmBroken => some s.thm.broken.toNat
  | .thmDevCnt => some (s.thm.dev.getD i 0)
  | .thmPfw => some (maskOf [s.clk.pfw, s.clk.pfwSeen])
  | .thmResetCause => some s.clk.cause
  | _ => none

/-- The direct status block of a context (Table 9.6, R362), 64 bytes, as a read of BAR0 gives it. -/
def State.directStatus (s : State) (x : Ctx) : Bytes :=
  padTo 64 (leBytes 6 s.tick.frameNum ++ leBytes 1 s.tick.state.code ++ leBytes 1 (if s.thm.shutdown then 3 else s.thm.stage)
    ++ leBytes 2 s.thm.gov ++ leBytes 1 s.calState ++ leBytes 1 (if s.boot == .running then s.sec.runningSlot.getD 0 + 1 else 0)
    ++ leBytes 1 s.links.gln.code ++ leBytes 1 (maskOf [s.pair.mode == .paired, s.pair.role = 0])
    ++ [0, 0] ++ leBytes 4 (s.ctx x).evtSeq ++ leBytes 2 (s.ctx x).inflight.length)

/-- Blocks TILE, AFE, ADC, HK, PIPE, DRIFT/FLY and DEF. -/
def State.roTile (s : State) (p : Param) (i : Nat) : Option Nat :=
  let d := s.drift.getD i .reset
  match p with
  | .intRatio => some (s.intRatio i)
  | .biasStatus => some (s.tiles.getD i .reset).biasBits
  | .digClkMeas => some (s.tiles.getD i .reset).dig.clk
  | .tileState => (allTiles[i]?).map fun t => if (s.tile t).mode = .ready && s.tileOn t && s.inReadout t then 4 else (s.tile t).mode.code
  | .adcTrimOfs => some (unsigned 16 (s.trimOf i).1)
  | .adcTrimGain => some ((s.trimOf i).2 + if (s.hk.trim.getD i (0, 0x4000, true)).2.2 then 0 else 65536)
  | .adcRefStatus => some (if s.hk.refReady then 1 else 0)
  | .ilvSkew => some (s.sec.otp.skew.getD i 0)
  | .hkLast => some (s.hk.last.getD i 0)
  | .hkQLevel => some s.hk.queue.length
  | .hkState => some (if s.hk.inj.isSome then 2 else if s.hk.round.isEmpty then 0 else 1)
  | .mergeRatio => some (s.mergeRatioInUse i)
  | .interpState => some (d.w + 65536 * d.lo + 2 ^ 20 * d.hi + 2 ^ 24 * maskOf [d.clamp, d.kept])
  | .trefUsed => some (unsigned 16 d.tref)
  | .defStaticCnt => some d.staticCnt
  | .defMarkCnt => some d.markCnt
  | .defCandCnt => some d.candCnt
  | .defCandAddr => some (candAddr i / 256)
  | .flyState => allTiles[i]?.map s.flyState
  | .driftExc => some (min d.exc 0xFFFF)
  | .tsFly => some (unsigned 16 d.tsFly)
  | .tsRate => some d.rateMk
  | .flyLastFrame => some (d.lastRef % 2 ^ 32)
  | .flyActCnt => some d.acts
  | .driftMapAddr => some (Sys2Proof.Machine.driftMapAddr / 256)
  | _ => none

/-- Blocks CAL, RAD, FILT, OUT, AUX and MEM. -/
def State.roImage (s : State) (p : Param) (i : Nat) : Option Nat :=
  match p with
  | .calState => some s.calState
  | .calActiveId => some (s.active fun b => leAt (hdrId b.hdr) (4 * i) 4)
  | .calActiveVer => some (s.active fun b => hdrVersion b.hdr)
  | .calSets => some (s.active fun b => hdrSets b.hdr)
  | .calTileMask => some (s.active fun b => hdrTiles b.hdr)
  | .calSetTemp => some (s.active fun b => if i < hdrSets b.hdr then unsigned 16 (hdrSetTemp b.hdr i) else 0)
  | .calTrefCh => some (s.active fun b => hdrTref b.hdr i % 64)
  | .calTiles => some s.calTiles
  | .calVerFloor => some s.calFloor
  | .calActFrameLo => some (s.active (·.actFrame) % 2 ^ 32)
  | .calActFrameHi => some (s.active (·.actFrame) / 2 ^ 32)
  | .calAreaAddr => some (Sys2Proof.Machine.calAreaAddr i / 256)
  | .calAreaSize => some (calAreaBytes / mib)
  | .calActiveArea => some ((s.bundle.map (·.area)).getD 2)
  | .radTblAddr => some (sceneAddr i / 256)
  | .radMapAddr => some (mapAddr i / 256)
  | .filtHistAddr => some (historyAddr / 256)
  | .outPalAddr => some (paletteAddr / 256)
  | .outPortState => some (s.outs.getD i .reset).state
  | .auxState => some (s.auxWord i)
  | .auxFuseState => some (s.aux.fuseState.getD i 0)
  | .auxAreaAddr => some (auxAddr 0 / 256)
  | .replayState => some (s.aux.op + 4 * s.aux.done + 1024 * s.aux.cause)
  | .replayAreaAddr => some (replayAddr / 256)
  | .replayAreaSize => some (s.replaySize / mib)
  | .memSize => some s.mem.gib
  | .memRegionAddr => some ((region s.mem.gib i).start / 256)
  | .memRegionSize => some ((region s.mem.gib i).size / mib)
  | .memChRate => some (s.mem.rate.getD i 0)
  | .memChState =>
    let c := s.mem.chan.getD i (0, 0)
    some (c.1 + (if s.mem.slow.getLsbD i then 4 else 0) + 8 * c.2)
  | .memSlowMask => some s.mem.slow.toNat
  | .memLoad => some s.mem.load
  | .memStageSize => some 320
  | _ => none

/-- A hardware lock is held (Table 14.5): by a halted core, or at this instant by one that runs, which the spec leaves open (log 31). -/
def State.lockHeld (s : State) (l : Nat) : Bool :=
  let runs := Config.lockHolder s.time l
  s.dbg.locks.any (fun e => e.1 == l) || (runs < 4 && (s.dbg.halted.getD runs none).isNone)

/-- Blocks HOST, SEC, NV, PEG, PERF, PAIR and DBG. -/
def State.roHost (s : State) (p : Param) (i : Nat) : Option Nat :=
  match p with
  | .hostCtxState => allCtx[i]?.map s.ctxState
  | .hostInflight => some ((s.ctxs.getD i .reset).inflight.length)
  | .hostEvtMask => some (s.ctxs.getD i .reset).evtMask.toNat
  | .secLifecycle => some (if s.sec.otp.owned then 1 else 0)
  | .secOwnerSlots => some s.ownerSlots
  | .secFwArb => some s.sec.otp.arb
  | .secGrantEpoch => some s.sec.otp.epoch
  | .secFwSlotState => some s.slotWord
  | .secGrantState =>
    allCtx[i]?.map fun x =>
      (((s.ctx x).auth.bind (·.grant)).map (·.rights % 8)).getD 0 + if s.grantValid x then 8 else 0
  | .secSealLogAddr => some (sealAddr 0 / 256)
  | .secFwVer => some (s.slotVersion i)
  | .pairState => some s.pair.mode.code
  | .pairRole => some s.pair.role
  | .pairOwn => some s.pair.own.toNat
  | .pairLinkState => some s.links.vxState.code
  | .nvState => some s.nvStateCode
  | .nvBufPages => some s.nv.buffer.length
  | .nvTxnLo => some (s.nv.txn % 2 ^ 32)
  | .nvTxnHi => some (s.nv.txn / 2 ^ 32)
  | .nvSpares => some s.nv.spares.length
  | .nvWear => some ((s.nv.wear.map (·.2)).foldl max 0 / 65536)
  | .nvLock => some s.nv.lock.toNat
  | .nvPwSet => some s.passwordsSet
  | .nvPwFail => some (s.nv.fails.getD i 0)
  | .ledgerTime => some s.ledger.time
  | .ledgerMinutes => some s.ledger.minutes
  | .ledgerOpen => some s.ledger.openIdx
  | .pegXferStatus => some ((s.peg i).status + 4 * (s.peg i).bytes)
  | .pegRx => some (leAt (s.peg (i / 8)).rx (4 * (i % 8)) 4)
  | .perfSnapAddr => some (snapAddr / 256)
  | .perfSnapSeq => some s.newestSeq
  | .perfSnapIdx => some s.perf.snapIdx
  | .sampleAddr => some (Sys2Proof.Machine.sampleAddr / 256)
  | .sampleLevel => some s.perf.samples.length
  | .dbgState => some (s.dbg.level + 4 * if s.dbg.forever then 0xFFFF else s.dbg.minutes)
  | .dbgHalt => some (maskOf (s.dbg.halted.map (·.isSome)))
  | .dbgLocks => some (maskOf ((List.range 32).map s.lockHeld))
  | _ => none

/-- The value of a parameter as a read shows it: a read-only one from the state, CLK_LOSS from its register, HK_QUEUE by a pop
of its own, a write-only one as zero, every other from the register file (Table 0.5, R286). -/
def State.readValue (s : State) (p : Param) (i : Nat) : Nat :=
  match p.row.access with
  | .wo => 0
  | .w1c => s.clk.loss.toNat
  | .ro => ((((s.roSystem p i).orElse fun _ => s.roTile p i).orElse fun _ => s.roImage p i).orElse fun _ => s.roHost p i).getD 0
  | _ => s.par p i

end Sys2Proof.Machine
end

