-- ==== Sys2Proof/Machine/Params.lean ====
section
/-!
DEFINITION. PARAM_READ and PARAM_WRITE (R286 to R288), and the parameter traffic of a pair (R331).
-/
namespace Sys2Proof.Machine

/-! PARAM_READ (R287). -/

/-- The NV pages that a register shows. -/
def shownPages : Param → List Nat
  | .secFwSlotState | .secFwVer => [fwPage]
  | .nvPwSet => (List.range 8).map (240 + ·)
  | .calVerFloor => [8]
  | _ => []

/-- A read of a register that shows NV pages checks them, where the NV store is reached (R381). -/
def State.checkShown (s : State) (p : Param) : State := if s.nvUp then (shownPages p).foldl State.nvCheck s else s

/-- The value of an ID to a reader: the caller's staged value of an RWS parameter unless ACTIVE; an RC parameter is cleared
unless the reader is a VIEWER or SERVICE context; HK_QUEUE is popped. -/
def State.readParam (s : State) (x : Ctx) (active : Bool) (id : Nat) (e : Param × Nat) : Nat × State :=
  if e.1 = .hkQueue then s.popQueue
  else match e.1.row.access with
    | .rc =>
      let v := s.par e.1 e.2
      (v, if s.streamControl x then s.setPar e.1 e.2 0 else s)
    | .rws =>
      match keyGet (s.ctx x).staged id with
      | some w => (if active then s.par e.1 e.2 else w.toNat, s)
      | none => (s.par e.1 e.2, s)
    | _ => (s.readValue e.1 e.2, s.checkShown e.1)

/-- The IDs of a PARAM_READ. -/
def readIds (p : Bytes) : List Nat := (List.range ((p.length - 2) / 2)).map fun k => leAt p (2 + 2 * k) 2

/-- The values of a list of IDs, read in order. -/
def State.readParams (s : State) (x : Ctx) (active : Bool) : List Nat → List Nat × State
  | [] => ([], s)
  | id :: rest =>
    match paramOf id with
    | none => s.readParams x active rest
    | some e =>
      let r := s.readParam x active id e
      let q := r.2.readParams x active rest
      (r.1 :: q.1, q.2)

/-- A read of an ID needs the guyline: a register of the F-die, unless the C-die answers with a staged value (R18, R282). -/
def State.readsAcross (s : State) (x : Ctx) (active : Bool) (id : Nat) : Bool :=
  match paramOf id with
  | some (p, i) => onFDie p i && (active || p.row.access != .rws || (keyGet (s.ctx x).staged id).isNone)
  | none => false

/-- PARAM_READ. What it asks of the F-die crosses the guyline, and the values come back (R18, R43). -/
def State.paramRead (s : State) (x : Ctx) (c : Cmd) (sg : Nat) : State :=
  let p := c.payload
  let flags := leAt p 0 2
  let ids := readIds p
  let bare := c.sgEntries = 0
  if p.length % 2 ≠ 0 || ids.isEmpty || 2047 < ids.length || 1 < flags || (ids.any fun id => (paramOf id).isNone)
      || (bare && ids.length ≠ 1) || (!bare && s.sgLength x c sg < 4 * ids.length) then s.complete x c .badParam
  else if let some st := (if bare then none else s.areaStop x c false) then s.complete x c st
  else if !s.streamControl x && ids.any (fun id => paramOf id == some (.hkQueue, 0)) then s.complete x c .notPermitted
  else if !s.fdieUp && ids.any (s.readsAcross x (flags = 1)) then s.complete x c .failedFault
  else
    let far := s.readsAcross x (flags = 1)
    let ask := (ids.filter far).map fun id => (id, (0 : Word))
    let r := (s.valuesAcross .cf ask).readParams x (flags = 1) ids
    let s := r.2.valuesAcross .fc (((ids.zip r.1).filter fun e => far e.1).map fun e => (e.1, BitVec.ofNat 32 e.2))
    if bare then s.complete x c .done (r.1.headD 0)
    else (s.sgWrite x c (r.1.flatMap (leBytes 4))).complete x c .done ids.length

def execParamRead (t : Time) (x : Ctx) (tag : BitVec 11) (sg : Nat) (s : State) : Host.Outcome State Fault Refusal :=
  .next (s.command t x tag 0x1001 fun s c => s.paramRead x c sg)

/-! PARAM_WRITE (R287, R288). -/

/-- The block of an ID may be written by the caller (R288). -/
def State.mayWrite (s : State) (x : Ctx) (id : Nat) : Bool :=
  let r := s.roleOf x
  match id / 1024 with
  | 0x0E | 0x0F | 0x10 | 0x11 => roleAtLeast 3 r
  | 0x13 | 0x14 => r == 1
  | 0x17 | 0x19 => roleAtLeast 2 r || r == 5
  | _ => roleAtLeast 2 r

/-- The PARTNER of a pair takes no writes to shared blocks (R331). -/
def State.partnerBars (s : State) (id : Nat) (p : Param) : Bool :=
  s.pair.mode == .paired && s.pair.role == 1 && sharedId id && (p.row.access == .rw || p.row.access == .rws)

/-- RO and RC entries are ignored. -/
def ignoredParam (p : Param) : Bool := p.row.access == .ro || p.row.access == .rc

/-- The status of an entry as the check of the list finds it. -/
def State.entryStatus (s : State) (x : Ctx) (e : Bytes) : Status :=
  let id := leAt e 0 2
  let v := leAt e 4 4
  match paramOf id with
  | none => .badParam
  | some (p, i) =>
    if leAt e 2 2 ≠ 0 then .badParam
    else if !s.mayWrite x id || s.partnerBars id p then .notPermitted
    else if ignoredParam p then .done
    else if 2 ^ p.row.width ≤ v || !p.inRange (s.sec.otp.grade == 2) i v then .badParam
    else .done

/-- The bias output of a code parameter. -/
def biasOfParam : Param → Option BiasOut
  | .vdetCode => some .vdet
  | .vskimCode => some .vskim
  | .vguardCode => some .vguard
  | _ => none

/-- An RW, WO or W1C entry takes effect; one on the F-die needs the guyline (R18, R282). -/
def State.writeNow (s : State) (x : Ctx) (p : Param) (i v : Nat) : State × Status :=
  if onFDie p i && !s.fdieUp then (s, .failedFault)
  else
  let s := if p = .hkInjFire then s else s.valueTo p i v
  match p with
  | .hkInjFire => (s.fireInjected v, .done)
  | .hkQEn => (s.writeQEn v, .done)
  | .adcRefen => (s.writeRefen v, .done)
  | .auxSubmit => s.auxSubmit x i v
  | .replayCtl => s.replayCtl x v
  | .thmResume => if v = 1 then s.thmResume x else (s, .badParam)
  | .ledgerHostTime => (s.ledgerHostTime v, .done)
  | .pegXfer => s.pegXfer i v
  | .perfClear => (s.perfClear v, .done)
  | .perfCtl => (s.perfCtl i v, .done)
  | .perfEvsel => s.perfEvsel (i / 8) (i % 8) v
  | .sampleCfg => s.sampleCfg v
  | .clkLoss => ({ s with clk := { s.clk with loss := s.clk.loss &&& ~~~ BitVec.ofNat 3 v } }, .done)
  | .vdetCode | .vskimCode | .vguardCode =>
    match biasOfParam p, allTiles[i]? with
    | some o, some t => (s.writeBias t o v, .done)
    | _, _ => (s, .done)
  | _ => (s.setPar p i v, .done)

/-- What applying the entries has done so far: the state, entries written, entries ignored, and the first entry that failed. -/
structure Applied where
  state : State
  written : Nat
  ignored : Nat
  failed : Option (Nat × Status)
deriving DecidableEq, Repr

/-- One entry, unless a later one of the list names the same ID. -/
def Applied.entry (a : Applied) (x : Ctx) (k : Nat) (e : Bytes) (last : Bool) : Applied :=
  let id := leAt e 0 2
  let v := leAt e 4 4
  match a.failed, paramOf id with
  | none, some (p, i) =>
    if ignoredParam p then { a with ignored := a.ignored + 1 }
    else if !last then { a with written := a.written + 1 }
    else if p.row.access = .rws then
      { a with
        written := a.written + 1
        state := a.state.modCtx x fun c => { c with staged := keyPut c.staged id (BitVec.ofNat 32 v) } }
    else
      let r := a.state.writeNow x p i v
      if r.2 = .done then
        { a with written := a.written + 1, state := if p.row.access = .rw then r.1.shareWrite id v else r.1 }
      else { a with failed := some (k, r.2) }
  | _, _ => a

/-- The entries of a PARAM_WRITE. -/
def writeEntries (p : Bytes) : List Bytes := (List.range (p.length / 8)).map fun k => sliceB (8 * k) 8 p

/-- The entries apply in list order. -/
def State.applyEntries (s : State) (x : Ctx) (es : List Bytes) : Applied :=
  es.zipIdx.foldl (fun a e => a.entry x e.2 e.1 (!(es.drop (e.2 + 1)).any fun f => leAt f 0 2 == leAt e.1 0 2))
    { state := s, written := 0, ignored := 0, failed := none }

/-- The peg ports whose transfers a list started, as a mask: the PARAM_WRITE completes with the last of them (R393). -/
def State.pegStarted (s : State) (es : List Bytes) : Nat :=
  maskOf ((List.range 2).map fun n =>
    (es.any fun e => leAt e 0 2 == Param.pegXfer.id n) && ((s.peg n).xfer.isSome || (s.peg n).queued.isSome))

/-- PARAM_WRITE: the whole list is checked before anything changes; the first failing entry decides. -/
def State.paramWrite (s : State) (x : Ctx) (c : Cmd) : State :=
  let es := writeEntries c.payload
  if c.payload.length % 8 ≠ 0 || es.isEmpty || 512 < es.length then s.complete x c .badParam
  else match (es.zipIdx.map fun e => (e.2, s.entryStatus x e.1)).find? fun e => e.2 != .done with
    | some (k, st) => s.complete x c st k
    | none =>
      let a := s.applyEntries x es
      match a.failed with
      | some (k, st) => s.complete x c st k
      | none =>
        let result := a.written + 65536 * a.ignored
        let ports := a.state.pegStarted es
        if ports = 0 then a.state.complete x c .done result else a.state.await x c (.peg ports result)

def execParamWrite (t : Time) (x : Ctx) (tag : BitVec 11) (s : State) : Host.Outcome State Fault Refusal :=
  .next (s.command t x tag 0x1002 fun s c => s.paramWrite x c)

/-! The pair's parameter traffic (R331, R337, R344, Table 11.5 step 2). -/

/-- Forwarded values: RW writes act as the LEAD's did; the active RWS values of a join replace the PARTNER's own, together. -/
def State.syncValues (s : State) (es : List (Nat × Word)) : State :=
  let es := es.filter fun e => sharedId e.1
  let of (k : Access) (e : Nat × Word) : Bool := match paramOf e.1 with
    | some (p, _) => p.row.access == k
    | none => false
  let s := s.applyStaged (es.filter (of .rws))
  (es.filter (of .rw)).foldl (fun s e => match paramOf e.1 with
    | some (p, i) => (s.writeNow 0 p i e.2.toNat).1
    | none => s) s

/-- The PARTNER keeps the shared values of a commit of the LEAD, in the order of the LEAD's fetches, and answers (R331). -/
def State.syncStaged (s : State) (id : Nat) (es : List (Nat × Word)) : State :=
  let es := es.filter fun e => sharedId e.1
  (s.modPair fun p =>
    { p with
      sync := (p.sync.filter fun e => e.1 < id) ++ [(id, false, es)] ++ p.sync.filter fun e => id < e.1 }).syncVerdicts

/-- The LEAD's decision: the values of a commit apply at the coming tick, or at once where no tick comes, or go (R331). -/
def State.syncDecision (s : State) (id : Nat) (ok atTick : Bool) : State :=
  let mine := s.pair.sync.filter fun e => e.1 == id
  if ok && atTick then s.modPair fun p => { p with sync := p.sync.map fun e => if e.1 = id then (e.1, true, e.2.2) else e }
  else
    let s := s.modPair fun p => { p with sync := p.sync.filter fun e => e.1 != id }
    (if ok then mine.foldl (fun s e => s.applyStaged e.2.2) s else s).syncVerdicts

/-- Live generations of tags (R344). -/
def State.setGens (s : State) (es : List (Nat × Nat)) : State :=
  es.foldl (fun s e =>
    let g := e.2 % 32
    { s with gens := if g = 0 then keyDel s.gens e.1 else keyPut s.gens e.1 g }) s

/-- A FLY_CYCLE request of the peer on tiles of this device (R337); what a PARTNER forces on its own tiles the LEAD notes. -/
def State.peerRequest (s : State) (mask : Nat) (force clear : Bool) : State :=
  let mine := (tilesIn mask).filter s.owns
  if clear then mine.foldl State.clearFault s
  else
    let s := mine.foldl (fun s t => s.requestCycle force t) s
    ((tilesIn mask).filter fun t => !s.owns t).foldl (fun s t => s.requestPeer force t) s

/-- An ABORT at the peer clears HOST for tiles of this device whose cycles have not started (R162, R337). -/
def State.peerUncycle (s : State) (mask : Nat) : State :=
  ((tilesIn mask).filter fun t => s.owns t && (s.dr t).cycle.isNone).foldl
    (fun s t => s.modDrift t fun k => { k with reasons := k.reasons &&& 0b01111, force := false }) s

/-- A FLY_INHIBIT of the peer on tiles of this device (R337). -/
def State.peerInhibit (s : State) (mask delay len : Nat) : State :=
  ((tilesIn mask).filter s.owns).foldl (fun s t => s.modDrift t fun k => { k with inhibit := inhibitOf s.time delay len }) s

/-- PAIR_PARAM_SYNC: on the PARTNER the LEAD's values and commits, on the LEAD the PARTNER's answers; on both the generations and
the flysheet requests of the peer. -/
def State.syncMessage (s : State) : SyncMsg → State
  | .values es => if s.pair.role = 1 then (s.syncValues es).syncVerdicts else s
  | .commit id es => if s.pair.role = 1 then s.syncStaged id es else s
  | .decide id ok atTick => if s.pair.role = 1 then s.syncDecision id ok atTick else s
  | .verdict id mask =>
    if s.isLead then s.modPair fun p => { p with verdicts := (p.verdicts.filter fun v => v.1 != id) ++ [(id, mask)] } else s
  | .gens es => s.setGens es
  | .cycle tiles force clear => s.peerRequest tiles.toNat force clear
  | .uncycle tiles => s.peerUncycle tiles.toNat
  | .inhibit tiles delay len => s.peerInhibit tiles.toNat delay len

def execPairParamSync (t : Time) (ok : Bool) (m : SyncMsg) (s : State) : Host.Outcome State Fault Refusal :=
  .next ((s.advance t).fromPeer ok fun s => if s.linked then s.syncMessage m else s)

end Sys2Proof.Machine
end

