-- ==== Sys2Proof/Machine/Pins.lean ====
section
/-!
DEFINITION. The pins: their levels in the columns of Table 12.7 (R370), and the boundary register (R411).
-/
namespace Sys2Proof.Machine

/-- TCLK is high at an instant: in the first half of each of its periods. A rate of 100 kHz is 10,000 ns a period. -/
def Wave.clockHigh (w : Wave) (now : Time) : Bool :=
  let phase := (now - w.tclkAt) * w.tclkRate
  w.tclkAt ≤ now && decide (phase / 10000 < w.tclkEdges) && decide (phase % 10000 < 5000)

/-- The bits of a tile signal. -/
def State.tileBits (s : State) (f : TileSt → Bool) : BitVec 8 := BitVec.ofNat 8 (maskOf (s.tiles.map f))

/-- The device has no reset, and its image runs (Table 12.7). -/
def State.operates (s : State) : Bool := s.boot == .running

/-- The clock output of a peg port in master mode rests at CPOL; its data output holds the last bit sent. PRDY is an output in slave mode,
low while fewer than 16 bytes of the FIFO are free (R391, R395). -/
def State.pegCells (s : State) : BitVec 2 × BitVec 2 × BitVec 2 :=
  let bits (f : Nat → Peg → Bool) : BitVec 2 := BitVec.ofNat 2 (maskOf (s.pegs.mapIdx f))
  (bits fun n _ => s.operates && !s.pegSlave n && bitOf (s.pegSetup n) 1, bits fun _ k => s.operates && k.lastTx.getLsbD 0,
    bits fun n k => s.operates && s.pegSlave n && decide (k.rxFifo.length + 16 ≤ 512))

/-- What the device drives on the outputs that have a boundary cell (Table 12.7), but for the lanes and buses, which outLanes, pcieLanes,
vxLanes and scanCells tell. -/
def State.cells (s : State) : Cells :=
  let drive (d : Drive) : BitVec 8 := BitVec.ofNat 8 (maskOf (s.drift.map fun k => k.drive == d))
  let peg := s.pegCells
  { cellsLow with
    ten := s.tileBits (·.ten), tclk := s.tileBits (·.wave.clockHigh s.time), tsync := s.tileBits (·.wave.tsync.highAt s.time)
    trow := s.tileBits (·.wave.trow.highAt s.time), tintS := s.tileBits (·.wave.tintS.highAt s.time)
    tintL := s.tileBits (·.wave.tintL.highAt s.time), flyA := drive .close, flyB := drive .isOpen, town := s.pair.own
    sel := BitVec.ofNat 4 s.pins.sel, selEn := s.pins.selEn.any fun a => decide (a + 20 ≤ s.time)
    sck := peg.1, sdo := peg.2.1, prdy := peg.2.2, alive := s.pair.alive, peerRst := !s.pair.peerRst
    memReset := s.pins.memOn, memClock := s.pins.memOn, flashCs := !s.pins.flashOn }

/-- No instruction drives both inputs of a flysheet bridge high: where both are preloaded high, neither is driven (R411, log 132). -/
def guardedCells (c : Cells) : Cells := { c with flyA := c.flyA &&& ~~~ c.flyB, flyB := c.flyB &&& ~~~ c.flyA }

/-- The states of a group of lanes (Table 12.7): not driven, electrical idle, LP-11, in operation, at the preloaded levels of their cells
under EXTEST or CLAMP, and toggling for EXTEST_PULSE and EXTEST_TRAIN (R411). -/
inductive Lanes where | highZ | idle | lp11 | active | preloaded | toggle
deriving DecidableEq, Repr

/-- The levels at the pins; none where every output is at high impedance. A boundary instruction that is in force drives the preloaded
cells in place of the device's own, and HIGHZ none. -/
def State.pinLevels (s : State) : Option Cells :=
  if s.pins.highZ then none
  else match s.dbg.tap with
    | .highz => none
    | .extest _ | .clamp | .extestPulse _ | .extestTrain _ => some (guardedCells s.dbg.preload)
    | _ => some s.cells

/-- Lanes with cells in the boundary register: as they are of themselves, or at the preloaded levels. -/
def State.scanLanes (s : State) (own : Lanes) : Lanes :=
  if s.pins.highZ then .highZ
  else match s.dbg.tap with
    | .extest _ | .clamp | .extestPulse _ | .extestTrain _ => .preloaded
    | .highz => .highZ
    | _ => own

/-- The lanes of a port OUT0 or OUT1: at high impedance until step 8 of Table 12.6, and then in LP-11 but for a transmission. -/
def State.outLanes (s : State) (p : Nat) : Lanes :=
  let o := s.outs.getD p .reset
  s.scanLanes (if o.state = 0 then .highZ else if o.sending.isSome then .active else .lp11)

/-- The AC-coupled lanes toggle for the IEEE 1149.6 instructions. -/
def State.acLanes (s : State) (own : Lanes) : Lanes :=
  match s.dbg.tap with
  | .extestPulse _ | .extestTrain _ => if s.pins.highZ then .highZ else .toggle
  | _ => s.scanLanes own

/-- The PCIe lanes train out of reset while PCIE_PERST_N is high (R258); the Vexnex transmitters are idle but while the link is used. -/
def State.pcieLanes (s : State) : Lanes :=
  s.acLanes (if s.boot == .inReset || s.boot == .dead || !s.clk.perst then .idle else .active)
def State.vxLanes (s : State) : Lanes := s.acLanes (if s.links.vxState == .down then .idle else .active)

/-- What a capture finds in the output cells: the lanes and buses in operation at the levels that stand there, LP-11 with every wire
high, and the others low (log 132). -/
def State.scanCells (s : State) (seen : Scan) : Cells :=
  let out (p : Nat) (v : BitVec 5) : BitVec 5 := match s.outLanes p with
    | .active => v
    | .lp11 => 31
    | _ => 0
  { s.cells with
    pcieTx := if s.pcieLanes = .active then seen.pcieTx else 0, vxTx := if s.vxLanes = .active then seen.vxTx else 0
    out0 := out 0 seen.out0, out1 := out 1 seen.out1, flash := if s.pins.flashOn then seen.flash else 0
    memBus := if s.pins.memOn then seen.memBus else 0 }

/-- What a capture finds in the input cells. A peg port in slave mode is selected by a low PEGn_SS_N (Table 13.7). -/
def State.pinIns (s : State) (seen : Scan) : PinIns :=
  let ssN (n : Nat) (g : Peg) : Bool := if s.pegSlave n then !g.selected else seen.pegSsN.getLsbD n
  { fsync := s.tick.fsLevel, flyPos := BitVec.ofNat 8 (maskOf (s.drift.map (·.posPin))), fv := s.tileBits (·.dig.fv)
    ssN := BitVec.ofNat 2 (maskOf (s.pegs.mapIdx ssN)), porst := s.boot != .inReset, pfw := !s.clk.pfw, perst := s.clk.perst
    other := seen }

end Sys2Proof.Machine
end

