-- ==== Sys2Proof/Machine/DebugOps.lean ====
section
/-!
DEFINITION. Debug access (R411 to R417): the TAP, DEBUG_UNLOCK, the requests of DBG_ACCESS, and revoked locks.
-/
namespace Sys2Proof.Machine

def State.modDbg (s : State) (f : Debug → Debug) : State := { s with dbg := f s.dbg }

/-! DEBUG_UNLOCK (R413, R414). -/

/-- What an owner signs to open a level. -/
def unlockText (nonce : Bytes) (level minutes : Nat) : Bytes :=
  ascii "KDU1" ++ devId ++ padTo 48 nonce ++ leBytes 1 level ++ leBytes 2 minutes

/-- OP 1: a new nonce, good for 60 s. -/
def State.drawNonce (s : State) (x : Ctx) (c : Cmd) (sg : Nat) : State :=
  if s.sgLength x c sg < 48 then s.complete x c .badParam
  else if let some st := s.areaStop x c false then s.complete x c st
  else
    let n := padTo 48 (Config.random s.sec.draws 48)
    let s := (s.modSec fun k => { k with draws := k.draws + 1 }).modDbg fun d => { d with nonce := some (n, s.time + 60000000000) }
    s.writeRecord x c sg n 0

/-- The nonce that still counts. -/
def State.liveNonce (s : State) : Option Bytes :=
  s.dbg.nonce.bind fun n => if s.time < n.2 then some n.1 else none

/-- While level 2 is open STREAM_START and PAIR_JOIN complete NOT_PERMITTED: those that wait as it opens, too (R414). -/
def State.endStarts (s : State) : State :=
  let waits (c : Cmd) : Bool := match c.wait with
    | .streams _ _ | .pairJoin 1 => true
    | _ => false
  let s := if s.pair.mode == .joining then s.joinFails .notPermitted else s
  let due := allCtx.flatMap fun x => ((s.ctx x).inflight.filter waits).map fun c => (x, c)
  due.foldl (fun s e => (s.abortCmd e.1 e.2 .notPermitted).getD (s.complete e.1 e.2 .notPermitted)) s

/-- OP 2: a level opens on an owner's signature, for MINUTES operating minutes, or with 0 until reset. -/
def State.openLevel (s : State) (x : Ctx) (c : Cmd) : State :=
  let level := leAt c.payload 1 1
  let minutes := leAt c.payload 2 2
  if c.payload.length ≠ 100 || !within 1 2 level then s.complete x c .badParam
  else if level = 2 && (s.anyStream || s.pair.mode == .paired) then s.complete x c .busy
  else
    let good := match s.liveNonce with
      | some n => s.ownerSigned (unlockText n level minutes) (c.payload.drop 4)
      | none => false
    let s := if s.liveNonce.isSome then s.verified 1 else s
    if good then
      let s := s.modDbg fun d => { d with level, minutes, forever := minutes == 0 }
      let s := if level = 2 then s.endStarts else s
      (s.devEvent 0x0D01 (leBytes 1 level ++ leBytes 1 x ++ leBytes 2 minutes)).complete x c .done
    else (s.bump .dbgUnlockFailCnt).complete x c .authFail

/-- Debug closes: by OP 3 (1) or as its time ends (2). Halted cores stay halted (log 31). -/
def State.closeDebug (s : State) (why : Nat) : State :=
  if s.dbg.level = 0 then s
  else (s.modDbg fun d => { d with level := 0, minutes := 0, forever := false }).devEvent 0x0D02 (leBytes 1 why)

def State.debugUnlock (s : State) (x : Ctx) (c : Cmd) (sg : Nat) : State :=
  if s.roleOf x ≠ 1 && !s.grantRight x 2 then s.complete x c .notPermitted
  else match leAt c.payload 0 1 with
    | 1 => if c.payload.length = 4 then s.drawNonce x c sg else s.complete x c .badParam
    | 2 => s.openLevel x c
    | 3 => if c.payload.length = 4 then (s.closeDebug 1).complete x c .done else s.complete x c .badParam
    | _ => s.complete x c .badParam

def execDebugUnlock (t : Time) (x : Ctx) (tag : BitVec 11) (sg : Nat) (s : State) : Host.Outcome State Fault Refusal :=
  .next (s.command t x tag 0xA003 fun s c => s.debugUnlock x c sg)

/-- DEBUG_NONCE_EXPIRY (R413): 60 s after OP 1. -/
def execDebugNonceExpiry (t : Time) (s : State) : Host.Outcome State Fault Refusal :=
  let s := s.advance t
  if s.liveNonce.isSome then .next s else .next (s.modDbg fun d => { d with nonce := none })

/-- DEBUG_TIME_EXPIRY (R413): the operating minutes of the open level have passed. -/
def execDebugTimeExpiry (t : Time) (s : State) : Host.Outcome State Fault Refusal :=
  let s := s.advance t
  if s.dbg.minutes = 0 && !s.dbg.forever then .next (s.closeDebug 2) else .next s

/-! Halted cores (R414, R416). -/

def State.haltedAt (s : State) (c : Nat) : Option Time := s.dbg.halted.getD c none

/-- Microseconds since a core halted. -/
def State.haltTime (s : State) (c : Nat) : Nat := (s.time - (s.haltedAt c).getD s.time) / 1000

/-- A core halts. The locks that it holds at that moment are a free value, less those that another halted core holds (log 31). -/
def State.haltCore (s : State) (c : Nat) : State :=
  if (s.haltedAt c).isSome then s
  else
    let held := (List.range 32).filter fun i => Config.lockHolder s.time i == c && !s.dbg.locks.any fun e => e.1 == i
    let now := (s.perf.units.getD 13 .reset).cycles
    (s.modDbg fun d =>
      { d with
        halted := d.halted.set c (some s.time), locks := d.locks ++ held.map fun i => (i, c)
        haltMarks := d.haltMarks.set c now, ages := d.ages.modify c (· + 1) }).devEvent 0x0D03 (leBytes 1 c)

/-- What waited for a core that runs now, or has given its context to one that runs: events in their order, and then the completions of
started commands, with the ABORT and RESET_CONTEXT commands that are free (R416). -/
def State.releaseHeld (s : State) : State :=
  let free (x : Ctx) (c : Cmd) : Option (Status × Nat) := match c.wait with
    | .held st r => if s.coreRuns x then some (st, r) else none
    | _ => none
  let s := s.releaseEvents.completeWhere free
  s.settleAborts (s.ctxs.map fun k => k.inflight.length).sum

/-- A core goes on, and lets go of its locks as it ends what it was doing. What waited for it goes on (R416). -/
def State.resumeCore (s : State) (c : Nat) : State :=
  if (s.haltedAt c).isNone then s
  else
    let us := s.haltTime c
    let s := (s.countHalted s.time).modDbg fun d => { d with halted := d.halted.set c none, locks := d.locks.filter fun e => e.2 != c }
    s.releaseHeld.devEvent 0x0D04 (leBytes 1 c ++ [0, 0, 0] ++ leBytes 4 us)

/-- A halted core executes one instruction and is halted again (R414): what it leaves in its registers is a free value. -/
def State.stepCore (s : State) (c : Nat) : State :=
  if (s.haltedAt c).isNone then s
  else (s.modDbg fun d => { d with ages := d.ages.modify c (· + 1) }).perfEvent 13 (0x10 + c)

/-- A running core may have come to a breakpoint of its own, at which it halts: whether it has is a free choice, made as DBG_ACCESS is
loaded and at each control of a core; reads stay peeks (log 31). -/
def State.hitBreaks (s : State) : State :=
  (List.range 4).foldl (fun s c =>
    if s.dbg.breaks.any fun e => e.1 == c then
      let v := s.takeFree 1
      if v.1 = 1 then v.2.haltCore c else v.2
    else s) s

/-! The TAP (R411, R412). -/

/-- What a loaded instruction acts as. -/
def State.tapActs (s : State) (i : TapInstr) : TapInstr :=
  match i with
  | .bypass | .idcode | .samplePreload _ _ => i
  | .extest _ | .clamp | .highz | .extestPulse _ | .extestTrain _ => if s.boot == .inReset then i else .bypass
  | .dbgAccess => if s.dbg.level = 0 then .bypass else i
  | .other => .bypass

/-- The ID code; the manufacturer's code has no value in the spec (log 7). -/
def State.idCode (s : State) : Nat :=
  let rev := if s.sec.otp.revision = 0xB0 then 2 else if s.sec.otp.revision = 0xA1 then 1 else 0
  1 + 2 * (Config.polsiaCode % 2048) + 4096 * 0x9630 + 2 ^ 28 * rev

/-- The boundary register captures the pins, and what it has captured leaves on TDO (log 132). -/
def State.capturePins (s : State) (seen : Scan) : State :=
  { s with out := s.out ++ [.boundary (s.scanCells seen) (s.pinIns seen)] }

/-- TAP_INSTRUCTION: an instruction is loaded. IDCODE answers the ID code; SAMPLE/PRELOAD captures the pins and preloads what is shifted
in; EXTEST and its 1149.6 forms capture too where they take effect, and then drive the preloaded cells, as CLAMP does (pinLevels). -/
def execTapInstruction (t : Time) (i : TapInstr) (s : State) : Host.Outcome State Fault Refusal :=
  let s := s.advance t
  if s.boot == .unpowered then .next s
  else
    let s := s.modDbg fun d => { d with tap := s.tapActs i }
    match s.dbg.tap with
    | .idcode => .next { s with out := s.out ++ [.debug s.idCode] }
    | .samplePreload seen load => .next ((s.capturePins seen).modDbg fun d => { d with preload := load })
    | .extest seen | .extestPulse seen | .extestTrain seen => .next (s.capturePins seen)
    | .dbgAccess => .next (if s.dbg.level = 2 then s.hitBreaks else s)
    | _ => .next s

/-! DBG_ACCESS (R414 to R416). -/

/-- A debug read of a parameter is a peek: the active value, the oldest word of HK_QUEUE without a pop. -/
def State.peekParam (s : State) (id : Nat) : Nat :=
  match paramOf id with
  | some (.hkQueue, _) => s.hk.queue.headD 0xFFFFFFFF
  | some e => s.readValue e.1 e.2
  | none => 0

/-- A debug read of four bytes of memory: of every region but SEC and CAL; in TAG, what R301 puts there. -/
def State.peekMem (s : State) (a : Nat) : Option Nat × State :=
  let inside (i : Nat) : Bool :=
    let r := region s.mem.gib i
    decide (r.start ≤ a) && decide (a + 4 ≤ r.start + r.size)
  if inside 2 then (some (leNat ((List.range 4).map fun i => s.storedByte (a + i))), s)
  else if [1, 3, 4, 5, 6, 8].any inside then (some (leNat (s.deviceBytes a 4)), s)
  else (none, s)

/-- A register of a core: of a halted one it stands until the core runs or steps, of a running one it is free at each read. -/
def State.coreRegister (s : State) (c k : Nat) : Nat × State :=
  if (s.haltedAt c).isSome then (Config.coreRegister c k (s.dbg.ages.getD c 0) % 2 ^ 64, s) else s.takeFree 64

/-- A value leaves on TDO. -/
def State.debugOut (s : State) (v : Nat) : State := { s with out := s.out ++ [.debug v] }

/-- A request within the open level; what the level does not allow does nothing. A counter is shown with what has occurred up to now, and
stays as it is (R415). -/
def State.debugRequest (s : State) (r : DbgReq) : State :=
  let control := s.dbg.level == 2
  match r with
  | .counter u j =>
    let v := s.countUnit u.val s.time
    let k := v.perf.units.getD u.val .reset
    ({ s with free := v.free } : State).debugOut (if j.val = 8 then k.cycleCount else k.cnt.getD j.val 0)
  | .mem a =>
    let p := s.peekMem a
    match p.1 with
    | some v => p.2.debugOut v
    | none => p.2
  | .param id => s.debugOut (s.peekParam id)
  | .coreReg c k =>
    let v := s.coreRegister c.val k
    v.2.debugOut v.1
  | .halt c => if control then s.hitBreaks.haltCore c.val else s
  | .step c => if control then s.hitBreaks.stepCore c.val else s
  | .resume c => if control then s.hitBreaks.resumeCore c.val else s
  | .breakpoint c a => if control then s.hitBreaks.modDbg fun d => { d with breaks := d.breaks ++ [(c.val, a)] } else s

def execDbgAccess (t : Time) (r : DbgReq) (s : State) : Host.Outcome State Fault Refusal :=
  let s := s.advance t
  if s.dbg.tap = .dbgAccess && s.dbg.level ≠ 0 then
    .next (s.debugRequest r)
  else .next s

/-! Revoked locks (R417). -/

/-- A core's contexts pass to the cores that run: to which of them the spec leaves open. -/
def State.passContexts (s : State) (core : Nat) : State :=
  let running := (List.range 4).filter fun c => (s.haltedAt c).isNone
  (List.range 8).foldl (fun s x =>
    if s.dbg.coreOf.getD x 0 = core then
      let v := s.takeFree 2
      v.2.modDbg fun d => { d with coreOf := d.coreOf.set x (running.getD (v.1 % running.length) 0) }
    else s) s

/-- Another STREAM_STOP of the context waits for the stream too. -/
def State.stoppedBy (s : State) (x : Ctx) (c : Cmd) (k : Nat) : Bool :=
  (s.ctx x).inflight.any fun d => d.order != c.order && (match d.wait with | .stopping m _ => bitOf m k | _ => false)

/-- A started command beyond its abort point fails with its core. A stop that has not taken effect, an activation that has not acted,
a commit of an import and a join under way are undone; what has taken effect stays (R417). -/
def State.failStarted (s : State) (x : Ctx) (c : Cmd) : State :=
  match c.wait with
  | .stopping m _ =>
    let mine := (streamsIn m).filter fun k => !s.stoppedBy x c k
    (mine.foldl (fun s k => s.modStream x k fun e => { e with stopping := false }) s).complete x c .failedFault
  | .activation => s.abandonActivation
  | .calNv (some _) => ({ s with act := .none } : State).complete x c .failedFault
  | .pairJoin 2 => s.joinFails .failedFault
  | _ => s.complete x c .failedFault

/-- The started command of a core fails, if none of those before it has ended it (R417). -/
def State.revokeCmd (s : State) (e : Ctx × Cmd) : State :=
  match (s.ctx e.1).inflight.find? fun d => d.order == e.2.order with
  | some c => (s.abortCmd e.1 c .failedFault).getD (s.failStarted e.1 c)
  | none => s

/-- A lock of a halted core is revoked (R417): its contexts pass on, and its started commands fail; what one has not finished is
undone. What waited for the core goes on. -/
def State.revokeLock (s : State) (core lock : Nat) : State :=
  let ran (x : Ctx) (c : Cmd) : Bool :=
    s.dbg.coreOf.getD x.val 0 == core && c.wait != .notStarted && c.wait != .forwarded
  let us := s.haltTime core
  let s := s.modDbg fun d => { d with locks := d.locks.filter fun e => e.1 != lock }
  let due := allCtx.flatMap fun x => ((s.ctx x).inflight.filter (ran x)).map fun c => (x, c)
  let s := (due.foldl State.revokeCmd (s.passContexts core)).releaseHeld
  (s.bump .dbgRevokeCnt).devEvent 0x0D00 (leBytes 1 core ++ leBytes 1 lock ++ [0, 0] ++ leBytes 4 us)

/-- LOCK_REVOKED: the lock's core has been halted for 1 ms, and not all four are halted. -/
def execLockRevoked (t : Time) (core : Fin 4) (lock : Fin 32) (s : State) : Host.Outcome State Fault Refusal :=
  let s := s.advance t
  let due := match s.haltedAt core.val with
    | some h => decide (h + 1000000 ≤ s.time)
    | none => false
  if due && !s.dbg.halted.all (·.isSome) && s.dbg.locks.any (fun e => e.1 == lock.val && e.2 == core.val) then
    .next (s.revokeLock core.val lock.val)
  else .next s

end Sys2Proof.Machine
end

