-- ==== Sys2Proof/Machine/Power.lean ====
section
/-!
DEFINITION. Power, reset, boot and clocks: the resets of Table 12.5 and what survives them, the boot of R310 and Table 12.6,
PFW_N (R369), the resets of PCIe (R259), reference loss, coast and switching (R351 to R358), and the self resets (R317, R318).
-/
namespace Sys2Proof.Machine

def State.modClk (s : State) (f : Clocks → Clocks) : State := { s with clk := f s.clk }

/-! What survives a reset (R285, R302, R371, R380). -/

/-- The NV store after a reset. The journal holds whole transactions: a running one exists in full if its record was complete,
which the spec leaves to the instant, and else not at all (R380). locks: the reset is one by the device itself, which a locked region
outlasts (R385 over the Reset column, log 134). -/
def Nv.survive (n : Nv) (whole locks : Bool) : Nv :=
  let n := match n.running, whole with
    | some txn, true => n.commitAll txn
    | _, _ => n
  { n with
    buffer := [], entered := [], last := n.txn, firstAt := none, running := none, waiting := []
    lock := if locks then n.lock else 0, fails := List.replicate 8 0, low := false }

/-- The device in reset: every field at its reset value but the NV store, the OTP, the flash, the levels at the input pins, and the
model's own records. What a transaction that exists in full brings with it is there: the provisioning that it holds, and the image whose
last part it holds (R317, Table 10.13). -/
def State.inReset (s : State) (boot : Boot) (cause : Nat) : State :=
  let r := State.reset
  let whole := Config.freeChoice s.free
  let sec := match s.nv.running, whole with
    | some n, true => ((s.layImage (s.imagesOf n)).provisioned (s.provisions n)).sec
    | _, _ => s.sec
  { r with
    pending := s.pending, boot, time := s.time, out := s.out, free := s.free + 1, wstatus := s.wstatus
    clk := { r.clk with cause, perst := s.clk.perst, oscSettle := s.clk.oscSettle, refsel := s.clk.refsel }
    nv := s.nv.survive whole (cause == 1 || cause == 2)
    ledger := { Ledger.reset with openPulses := s.ledger.openPulses, openFlag := s.ledger.openFlag }
    sec := { r.sec with otp := sec.otp, flash := sec.flash, draws := s.sec.draws }
    perf := { r.perf with upTo := s.time }
    pins := { r.pins with highZ := boot == .unpowered }
    dbg := { r.dbg with preload := if boot == .unpowered then r.dbg.preload else s.dbg.preload }
    tiles := r.tiles.zipWith (fun (a : TileSt) (b : TileSt) => { a with dig := { a.dig with fv := b.dig.fv } }) s.tiles
    drift := r.drift.zipWith (fun (a : Drift) (b : Drift) => { a with posPin := b.posPin, posSince := b.posSince }) s.drift
    mem := { r.mem with gib := s.mem.gib } }

/-! Boot, first part: the F-die at reset release (R101, R310, R351, R380, R386). -/

/-- The persistent parameters of page 17; none held: the ceilings of the grade (Table 12.9). -/
def State.loadParams (s : State) : State :=
  if s.nvHeld 17 then
    let b := (s.nvLook 17).data
    (pageParams.zipIdx).foldl (fun s e => s.setPar e.1.1 e.1.2 (leAt b (4 * e.2) 4)) s
  else if s.sec.otp.grade = 2 then
    [Param.thmWarn, .thmThrottle, .thmShut].foldl (fun s p => s.setPar p 0 (p.reset 0 + 160)) s
  else s

/-- The bindings and tag ranges of page 11 (R255). -/
def State.loadBindings (s : State) : State :=
  if s.nvHeld 11 then
    let b := (s.nvLook 11).data
    (List.range 8).foldl (fun s x =>
      ((s.setPar .hostCtxBind x (leAt b (8 * x) 2)).setPar .hostTagBase x (leAt b (8 * x + 2) 2)).setPar .hostTagCount x
        (leAt b (8 * x + 4) 2)) s
  else s

/-- The ledger as committed; the open period's close pulses and flag stand in no field of the summary (log 5). -/
def State.loadLedger (s : State) : State :=
  if s.nvHeld 256 then
    s.modLedger fun l => { Ledger.ofBytes (s.nvLook 256).data with openPulses := l.openPulses, openFlag := l.openFlag }
  else s

/-- What a device does as its reset is released, at PORST_N or by itself: the F-die runs, housekeeping starts its first round, the flash
operates, and the persistent values are in force. -/
def State.startBoot (s : State) : State :=
  let s := (s.nvFetchAll [17, 256]).loadParams.loadLedger
  let s := s.setPar .clkASrc 0 (min 2 s.clk.refsel)
  let board := s.par .pairBoard == 1
  let s : State :=
    { s with
      boot := .rom
      hk := { s.hk with on := true, round := s.hk.regular, due := s.time + s.hk.period * 100000 }
      clk := { s.clk with rcTrim := s.sec.otp.rcTrim, trimAt := s.time }
      pair := { s.pair with mode := if board then .detached else .single }
      links := { s.links with gln := .training, vxState := .down }
      pins := { s.pins with highZ := false, flashOn := true } }
  s.modSec fun k => { k with bootedAt := s.time }

/-! Resets. -/

/-- The pin or a rail resets the device (R368). -/
def State.hardReset (s : State) (boot : Boot) (cause : Nat) : State := s.inReset boot cause

/-- PORST_N_ASSERT (R368): a pulse of low ns. -/
def execPorstNAssert (t : Time) (low : Nat) (s : State) : Host.Outcome State Fault Refusal :=
  let s := s.advance t
  if low < 1000 || s.boot == .unpowered then .next s else .next (s.hardReset .inReset 0)

/-- BROWN_OUT (R368): dur ns below 90% of nominal, on any of the three rails. -/
def execBrownOut (t : Time) (_rail : Rail) (dur : Nat) (s : State) : Host.Outcome State Fault Refusal :=
  let s := s.advance t
  if dur < 1000 || s.boot == .unpowered then .next s else .next (s.hardReset .inReset 3)

/-- POWER_LOSS (R285, Table 13.4). -/
def execPowerLoss (t : Time) (s : State) : Host.Outcome State Fault Refusal := .next ((s.advance t).hardReset .unpowered 0)

/-- Whether an instruction of the TAP drives the pins (R411). -/
def drivesPins : TapInstr → Bool
  | .extest _ | .clamp | .highz | .extestPulse _ | .extestTrain _ => true
  | _ => false

/-- PORST_N_RELEASE (R310, R350, R351, R352): the straps are sampled, and the time base starts at 0. Without the root key the
device stops with no host interface. -/
def execPorstNRelease (t : Time) (oscSettle refsel : Fin 4) (pufOk : Bool) (s : State) : Host.Outcome State Fault Refusal :=
  if s.boot != .inReset && s.boot != .unpowered then .next (s.advance t)
  else
    let crystal : Crystal := if refsel.val = 0 then .settling 1 else if refsel.val = 1 then .comparing 1 else .idle
    let s : State :=
      { s with
        time := 0, perf := { s.perf with upTo := 0 }
        clk := { s.clk with oscSettle := oscSettle.val, refsel := refsel.val, crystal, crystalAt := 0 }
        dbg := { s.dbg with tap := if drivesPins s.dbg.tap then .bypass else s.dbg.tap } }
    let s := s.startBoot
    .next (if pufOk then s else { s with boot := .dead })

/-- A self reset (Table 12.5): straps, time base, crystal and the count of frame numbers (R24) stay. -/
def State.selfReset (s : State) (cause : Nat) : State :=
  let crystal := s.clk.crystal
  let tap := s.dbg.tap
  let r := s.inReset .rom cause
  let failed := crystal == .failed
  let r : State := { r with tick := { r.tick with nextFrame := s.tick.nextFrame } }
  let r := r.modClk fun k =>
    { k with
      crystal, pllA := if failed then .coasting r.time else .off }
  (r.modDbg fun d => { d with tap := if tap = .dbgAccess then .bypass else tap }).startBoot

/-! Boot, second part: clocks and training (R49, R296, R351, R352). -/

/-- The settle wait in ns of the time base (Table 12.1). Both count cycles of the untrimmed RC oscillator (R351, R352), so on the
time base the wait is the nominal one. -/
def settleTime (oscSettle : Nat) : Nat := [2000000, 8000000, 32000000, 64000000].getD oscSettle 0

/-- OSC_SETTLE_EXPIRY (R351): the wait is over, and the comparison starts. -/
def execOscSettleExpiry (t : Time) (s : State) : Host.Outcome State Fault Refusal :=
  let s := s.advance t
  match s.clk.crystal with
  | .settling n =>
    if s.clk.crystalAt + settleTime s.clk.oscSettle ≤ s.time then
      .next (s.modClk fun k => { k with crystal := .comparing n, crystalAt := s.time })
    else .next s
  | _ => .next s

/-- The measured frequency is within 10% of the expected one. -/
def State.crystalGood (s : State) (kHz : Nat) : Bool :=
  let f := if s.clk.refsel = 0 then 25000 else s.par .clkRefinFreq
  10 * ((kHz : Int) - f).natAbs ≤ f

/-- CRYSTAL_CHECK_DONE (R351): the comparison over 100 µs is over. Accepted, once more (REFCLK_IN without a wait, log 35), or PLL_A
coasts from the RC oscillator. -/
def execCrystalCheckDone (t : Time) (kHz : Nat) (s : State) : Host.Outcome State Fault Refusal :=
  let s := s.advance t
  match s.clk.crystal with
  | .comparing n =>
    if s.time < s.clk.crystalAt + 100000 then .next s
    else if s.crystalGood kHz then .next (s.modClk fun k => { k with crystal := .accepted })
    else if n = 1 then
      .next (s.modClk fun k => { k with crystal := if k.refsel = 0 then .settling 2 else .comparing 2, crystalAt := s.time })
    else .next (s.modClk fun k => { k with crystal := .failed, pllA := .coasting s.time, loss := k.loss ||| 1 })
  | _ => .next s

def State.pll (s : State) : Pll → PllState
  | .a => s.clk.pllA
  | .c => s.clk.pllC
  | .m => s.clk.pllM

def State.setPll (s : State) (p : Pll) (k : PllState) : State :=
  s.modClk fun c => match p with
    | .a => { c with pllA := k }
    | .c => { c with pllC := k }
    | .m => { c with pllM := k }

/-- The device is powered and out of reset. -/
def State.awake (s : State) : Bool := s.boot == .rom || s.boot == .basecamp || s.boot == .running

/-- PLL_LOCKED (R351, R352, Table 12.6): a PLL locks for the first time after a reset; PLL_A once its reference is accepted. -/
def execPllLocked (t : Time) (p : Pll) (s : State) : Host.Outcome State Fault Refusal :=
  let s := s.advance t
  let ready := p != .a || 2 ≤ s.clk.refsel || s.clk.crystal == .accepted
  if s.awake && s.pll p == .off && ready then
    let s := s.setPll p .locked
    .next (if p = .a then s.modClk fun k => { k with srcA := min 2 k.refsel, srcNext := min 2 k.refsel, trimAt := s.time } else s)
  else .next s

/-- The steps of a transfer or a confirm that power loss cut short (R309, R317). -/
def State.bootCommit (s : State) (ups : List (Nat × Nat × Bytes)) : State :=
  if s.nv.spares.length < 64 then s
  else (ups.foldl (State.nvEnter · s.fetches ·) s).modNv fun n => n.commitAll ((n.running).getD (n.last + 1))

/-- The OTP steps of an interrupted transfer, which need no NV store (R309). -/
def State.finishOtp (s : State) : State := if s.sec.otp.transfer.isSome then s.transferBurn else s

/-- Interrupted work is completed (R310 step 4). A transfer that the NV store cannot take yet keeps its record (R309, R382). -/
def State.finishWork (s : State) : State :=
  let s := match s.burned with
    | some (s, ups) => s.bootCommit ups
    | none => s
  match s.sec.otp.transfer with
  | none => s
  | some _ =>
    let s := s.transferBurn
    if s.nv.spares.length < 64 then s else (s.bootCommit transferPages).transferDone

/-- GUYLINE_TRAIN_DONE (R49): without a guyline the C-die stays in basecamp with the bindings of R255 (R311), and of an interrupted
transfer the OTP steps are completed (R309). -/
def execGuylineTrainDone (t : Time) (lanesFC lanesCF : Nat) (s : State) : Host.Outcome State Fault Refusal :=
  let s := s.advance t
  if s.boot != .rom || s.clk.glnTrained then .next s
  else if 8 ≤ lanesFC && 2 ≤ lanesCF then
    let s : State := { s with links := { s.links with
      gln := .up, width := (if 16 ≤ lanesFC then 4 else 3) + 16 * (if 4 ≤ lanesCF then 4 else 2) } }
    .next (((s.modClk fun k => { k with glnTrained := true }).nvFetchAll [11]).loadBindings)
  else .next { s.finishOtp with boot := .basecamp, links := { s.links with gln := .down } }

def chanCode : ChanTrain → Nat
  | .failed => 0
  | .trained => 1
  | .derated => 2

/-- MEMORY_TRAIN_DONE (R1, R296): the GiB fitted, whether the flash is there, and each channel's outcome with its MR4 code. A
failed channel, a size that R294 does not support or a missing part leaves the device in basecamp. -/
def execMemoryTrainDone (t : Time) (gib : Nat) (flashOk : Bool) (chans : List (ChanTrain × Nat)) (s : State) :
    Host.Outcome State Fault Refusal :=
  let s := s.advance t
  if s.boot != .rom || !s.clk.glnTrained || s.clk.memTrained then .next s
  else
    let chan := (List.range 8).map fun m =>
      match chans[m]? with
      | some (k, r) => (chanCode k, r % 32)
      | none => (0, 0)
    let s : State := { s with mem := { s.mem with gib, chan }, pins := { s.pins with memOn := true } }
    if chan.all (·.1 != 0) && [8, 12, 16].contains gib && flashOk then .next (s.modClk fun k => { k with memTrained := true })
    else .next { (s.nvFetchAll [fwPage, 10]).finishWork with boot := .basecamp }

/-! Boot, third part: the image (R310). -/

/-- The slot in a state. -/
def State.slotIn (s : State) (st : Nat) : Option Nat := (List.range 2).find? fun k => s.fwState k == st

/-- The pseudocode of R310 up to the choice: the slot, and what is committed before it is verified. -/
def State.chooseSlot (s : State) : Option Nat × State :=
  match s.slotIn 4 with
  | some k =>
    let n := s.trialBoots + 1
    if s.par .secFwConfirmBoots < n then
      let s := (s.bootCommit [(fwPage, 2, leBytes 1 n), (fwPage, k, [6])]).modSec fun e => { e with rollback := some k }
      (s.slotIn 5, s)
    else (some k, s.bootCommit [(fwPage, 2, leBytes 1 n)])
  | none =>
    match s.slotIn 3 with
    | some k => (some k, s.bootCommit [(fwPage, k, [4]), (fwPage, 2, [1])])
    | none => (s.slotIn 5, s)

/-- A slot that passes step 6 runs; one that fails is rejected. -/
def State.tryImage (s : State) (k : Nat) : Bool × State :=
  let s := s.verified (s.imageSignatures (s.image k))
  if (s.imageRefusal (s.image k)).isNone then (true, s) else (false, s.bootCommit [(fwPage, k, [6])])

/-- The image that runs, if any: the chosen slot, else the other one if it is ACTIVE or VERIFIED. -/
def State.selectImage (s : State) : Option Nat × State :=
  match s.chooseSlot with
  | (none, s) => (none, s)
  | (some k, s) =>
    match s.tryImage k with
    | (true, s) => (some k, s)
    | (false, s) =>
      if s.fwState (1 - k) = 5 || s.fwState (1 - k) = 2 then
        match s.tryImage (1 - k) with
        | (true, s) => (some (1 - k), s)
        | (false, s) => (none, s)
      else (none, s)

/-- ADC_TRIM_BAD for each channel whose trim row fails its check value (R93). -/
def State.trimEvents (s : State) : State :=
  (List.range 64).foldl (fun s n =>
    if (s.sec.otp.trim.getD n (0, 0x4000, true)).2.2 then s else s.devEvent 0x0400 (leBytes 1 n)) s

/-- Where the image stands in the SEC region: at its start (log 115). -/
def secAddr : Nat := 0

/-- Steps 3 to 7 of R310 and step 8 of Table 12.6: keys, memory, the image, trim, ports and ticks. SC sends the trim to the F-die over the
guyline (R93). -/
def State.bootImage (s : State) : State :=
  let s := s.modSec fun k => { k with bootDraw := some k.draws, draws := k.draws + 3 }
  let s := (({ s with mem := { s.mem with cells := [] } } : State).nvFetchAll [8, fwPage, 10, 16]).finishWork
  match s.selectImage with
  | (none, s) => { s with boot := .basecamp }
  | (some k, s) =>
    let trial := s.fwState k == 4
    let s := (s.modSec fun e =>
      { e with runningSlot := some k, trialDue := trial, trial := if trial then some k else none }).writeMem secAddr (s.image k)
    let s : State :=
      { s with
        boot := .running, outs := s.outs.map fun o => { o with state := 1 }
        links := { s.links with vxState := if s.par .pairBoard = 1 then .training else .down }
        tick := { s.tick with running := true, next := s.time + 10 * s.par .tickPeriod } }
    (s.sendAcross .cf (.adcTrim s.sec.otp.trim)).trimEvents

/-- BOOT_IMAGE_START (R310). -/
def execBootImageStart (t : Time) (s : State) : Host.Outcome State Fault Refusal :=
  let s := s.advance t
  if s.boot == .rom && s.clk.memTrained then .next s.bootImage else .next s

/-! PFW_N (R369, R383). -/

/-- PFW_N has been low for 1 µs: the buffer is committed, the class-0 event goes out, and the injected trigger fires. The C-die's
part follows at the first copy of the event (pfwC). -/
def State.pfwAssert (s : State) : State :=
  let s := (s.modClk fun k => { k with pfw := true, pfwSeen := true, pfwAt := s.time }).bump .thmPfwCnt
  (s.nvStart.raise0 .fc 1 0 0).injTrigger 2 none

def execPfwNAssert (t : Time) (low : Nat) (s : State) : Host.Outcome State Fault Refusal :=
  let s := s.advance t
  if low < 1000 || s.clk.pfw || !s.awake then .next s else .next s.pfwAssert

/-- PFW_N has been high for 100 ms: open pulses held back start. -/
def State.pfwRelease (s : State) (high : Nat) : State :=
  let len := (s.time - high - s.clk.pfwAt) / 1000000
  let s := (s.modClk fun k => { k with pfw := false, pfwSeenC := false }).fdieEvent 0x0921 (leBytes 4 len)
  allTiles.foldl (fun s t => s.releasePulse t) s

/-- PFW_N_RELEASE: high for 100 ms. The length counts from the assertion to the rise of the pin (log 33). -/
def execPfwNRelease (t : Time) (high : Nat) (s : State) : Host.Outcome State Fault Refusal :=
  let s := s.advance t
  if high < 100000000 || !s.clk.pfw then .next s
  else .next (s.pfwRelease high)

/-! PCIe (R259, R370). -/

/-- The contexts of a set are reset. -/
def State.resetContexts (s : State) (why : ResetWhy) (p : Ctx → Bool) : State :=
  (allCtx.filter p).foldl (fun s x => (s.resetCtx x why none).2) s

/-- FUNCTION_LEVEL_RESET: function 0 is the physical function, whose reset takes the virtual ones with it. -/
def execFunctionLevelReset (t : Time) (fn : Fin 8) (s : State) : Host.Outcome State Fault Refusal :=
  let s := s.advance t
  if !s.hostUp then .next s
  else .next (s.resetContexts .flr fun x => if fn.val = 0 then s.onPcie x else s.bindingOf x == fn.val + 1)

/-- HOT_RESET: every PCIe-bound context. -/
def execHotReset (t : Time) (s : State) : Host.Outcome State Fault Refusal :=
  let s := s.advance t
  if !s.hostUp then .next s else .next (s.resetContexts .hot s.onPcie)

/-- The rings are fetched from again as the link comes up. -/
def State.fetchAllRings (s : State) : State := (allCtx.filter s.onPcie).foldl (fun s x => s.fetchRing x) s

/-- PCIE_PERST_N_CHANGE (R370): the endpoint trains while the input is high. -/
def execPciePerstNChange (t : Time) (high : Bool) (s : State) : Host.Outcome State Fault Refusal :=
  .next (((s.advance t).modClk fun k => { k with perst := high }).fetchAllRings)

/-! Reference loss and coast (R355 to R358). -/

def pllIndex : Pll → Nat
  | .a => 0
  | .c => 1
  | .m => 2

/-- A PLL loses its reference: it coasts at 25%, PLL_A from the RC oscillator. The C-die reports CLK_LOSS, PLL_A's at the first copy of
the class-0 event. -/
def State.losePll (s : State) (p : Pll) : State :=
  let s := s.setPll p (.coasting s.time)
  let s := s.modClk fun k =>
    { k with loss := k.loss ||| BitVec.ofNat 3 (2 ^ pllIndex p), srcA := if p = .a then 2 else k.srcA }
  let s := s.bump .clkLossCnt
  let s := match p with
    | .a => s.raise0 .fc 5 0 0
    | .c => s.raise0 .cf 3 0 s.holdCause
    | .m => s.raise0 .cf 3 1 s.holdCause
  if p = .a then s else s.devEvent 0x0910 (leBytes 1 (pllIndex p))

/-- What a coast does at once (R338, R356): the die of the PLL acts; the other one acts at the first copy of the class-0 event. -/
def State.coast (s : State) (r : RefIn) : State :=
  match r with
  | .pllA => s.coastF false
  | .pcie => s.coastC

/-- The PLLs that an input feeds and that can lose it. -/
def State.fedBy (s : State) (r : RefIn) : List Pll :=
  let runs (p : Pll) : Bool := s.pll p == .locked || (s.pll p).isSwitching
  match r with
  | .pllA =>
    let src := if s.clk.pllA.isSwitching then s.clk.srcNext else s.clk.srcA
    if runs .a && src ≠ 2 then [.a] else []
  | .pcie => [Pll.c, .m].filter runs

/-- REFERENCE_LOST (R355, R356). -/
def execReferenceLost (t : Time) (r : RefIn) (s : State) : Host.Outcome State Fault Refusal :=
  let s := s.advance t
  match s.fedBy r with
  | [] => .next s
  | ps => .next ((ps.foldl (fun s p => s.losePll p) s).coast r)

/-- The coast of a PLL ends: it relocks and ramps (R357, R358). -/
def State.regain (s : State) (p : Pll) : State :=
  match s.pll p with
  | .coasting since =>
    let r := s.relockTime
    let s := r.2.setPll p (.switching s.time r.1 (some ((s.time - since) / 1000)))
    if p = .a then s.modClk fun k => { k with srcNext := s.par .clkASrc } else s
  | _ => s

/-- REFERENCE_RESTORED (R357). After a failed crystal check PLL_A coasts until the next reset. -/
def execReferenceRestored (t : Time) (r : RefIn) (s : State) : Host.Outcome State Fault Refusal :=
  let s := s.advance t
  match r with
  | .pllA => if s.clk.crystal == .failed then .next s else .next (s.regain .a)
  | .pcie => .next ((s.regain .c).regain .m).fetchAllRings

/-- The source code that CLK_SWITCH_DONE shows (Table 12.10). PLL_C and PLL_M have none: theirs is a free value. -/
def State.sourceCode (s : State) : Pll → Nat × State
  | .a => (s.clk.srcA, s)
  | _ => s.takeFree 8

/-- An event of the die that a PLL belongs to (Table 12.2). -/
def State.pllEvent (s : State) (p : Pll) (code : Nat) (detail : Bytes) : State :=
  if p = .a then s.fdieEvent code detail else s.devEvent code detail

/-- A switch is over: the domain runs at full rate on its reference, CLK_SWITCH_DONE is raised, and after it CLK_RESTORED where the
switch ended a coast (R357, R358). -/
def State.endSwitch (s : State) (p : Pll) (coast : Option Nat) : State :=
  let s := s.setPll p .locked
  let s := if p = .a then s.modClk fun k => { k with srcA := k.srcNext, trimAt := s.time } else s
  let v := s.sourceCode p
  let s := v.2.pllEvent p 0x0912 (leBytes 1 (pllIndex p) ++ leBytes 1 v.1)
  match coast with
  | some us => s.pllEvent p 0x0911 (leBytes 1 (pllIndex p) ++ [0, 0, 0] ++ leBytes 4 us)
  | none => s

/-- CLOCK_SWITCH_DONE (R358). -/
def execClockSwitchDone (t : Time) (p : Pll) (s : State) : Host.Outcome State Fault Refusal :=
  let s := s.advance t
  match s.pll p with
  | .switching since relock coast =>
    if since + rampLength relock coast.isSome ≤ s.time then .next (s.endSwitch p coast) else .next s
  | _ => .next s

/-! RC trim (R353). -/

/-- The code after a measurement of count RC cycles in a true duration of due cycles: one step towards zero error if the error
exceeds 0.01%. -/
def trimStep (code count due : Nat) : Nat :=
  if 10000 * ((count : Int) - due).natAbs ≤ due then code
  else if decide (due < count) == Config.rcTrimRaisesRate then code - 1
  else min 1023 (code + 1)

/-- The true duration of the measurement that is due, in cycles of 100 MHz: 10 ms of PLL_A's reference every 100 ms, or 16
consecutive accepted FSYNC intervals, which FSYNC_NOM_PERIOD states; none where nothing is measured (R353). -/
def State.trimDue (s : State) : Option Nat :=
  match s.par .clkRcTrimSrc with
  | 0 => if s.clk.pllA == .locked && s.clk.srcA ≠ 2 && s.clk.trimAt + 100000000 ≤ s.time then some 1000000 else none
  | 1 => if s.par .tickSrc = 1 && s.tick.fsCount = 16 then some (16 * s.par .fsyncNomPeriod) else none
  | _ => none

/-- The error of a measurement in units of 10 ppm, rounded (log 99), as CLK_RC_ERR holds it. -/
def rcError (count due : Nat) : Int := clampI (-32768) 32767 (rnd (100000 * ((count : Int) - due)) due)

/-- CLK_STATE[6] after a measurement: set within 0.1%, clear beyond 0.15%, and else as it was. -/
def trimmedAfter (was : Bool) (count due : Nat) : Bool :=
  let err := ((count : Int) - due).natAbs
  if 1000 * err ≤ due then true else if 3 * due < 2000 * err then false else was

/-- RC_TRIM_MEASUREMENT (R353): RC cycles were counted over the true duration. -/
def execRcTrimMeasurement (t : Time) (count : Nat) (s : State) : Host.Outcome State Fault Refusal :=
  let s := s.advance t
  match s.trimDue with
  | none => .next s
  | some due =>
    if !s.awake then .next s
    else
      let err := rcError count due
      let was := s.clk.rcTrimmed
      let now := trimmedAfter was count due
      let s := s.modClk fun k => { k with rcErr := err, rcTrim := trimStep k.rcTrim count due, rcTrimmed := now, trimAt := s.time }
      let s : State := { s with tick := { s.tick with fsCount := 0 } }
      if now && !was then
        .next (s.fdieEvent 0x0913
          (leBytes 1 (s.par .clkRcTrimSrc) ++ [0] ++ leBytes 2 s.clk.rcTrim ++ leBytes 2 (unsigned 16 err)))
      else .next s

/-! Self resets (R317, R318, R383) and the end of a commit. -/

/-- A self reset that is due happens once the buffer is committed and its commit has ended (R383). Frames in flight get failed-frame
records, with a cause that Table 9.16 does not list: a self reset is no exception of R25 (log 24). -/
def State.resetWhenIdle (s : State) : State :=
  match s.sec.resetDue with
  | none => s
  | some cause =>
    if s.nv.running.isSome then s
    else if !s.nv.buffer.isEmpty then s.nvStart
    else
      let v := s.takeFree 8
      (v.2.faultStreams v.1).selfReset cause

/-- A self reset of cause 1 or 2 is due: the streams stop as for a fault. -/
def State.resetItself (s : State) (cause : Nat) : State :=
  let v := s.takeFree 8
  ((v.2.stopStreams v.1).modSec fun k => { k with resetDue := some cause, restartAt := none }).resetWhenIdle

/-- FW_RESTART_DELAY: 10 ms after the reply of an FW_ACTIVATE with RESTART. -/
def execFwRestartDelay (t : Time) (s : State) : Host.Outcome State Fault Refusal :=
  let s := s.advance t
  match s.sec.restartAt with
  | some a => if a ≤ s.time then .next (s.resetItself 1) else .next s
  | none => .next s

/-- The slot that this boot tries has not been confirmed: it is TRIAL yet. -/
def State.unconfirmed (s : State) : Bool := s.sec.trial.any fun k => s.fwState k == 4

/-- FW_CONFIRM_TIMEOUT (R318): no FW_CONFIRM has completed. The window runs on in a basecamp that a failure of the trial boot has led
to. -/
def execFwConfirmTimeout (t : Time) (s : State) : Host.Outcome State Fault Refusal :=
  let s := s.advance t
  if (s.boot == .running || s.boot == .basecamp) && s.unconfirmed && s.sec.resetDue.isNone
      && s.sec.bootedAt + s.par .secFwConfirmTime * 1000000000 ≤ s.time then .next (s.resetItself 2)
  else .next s

/-- NV_COMMIT_DONE (R379, R382): the running transaction ends, with the spares and records that failed. -/
def execNvCommitDone (t : Time) (retired recordFails : Nat) (s : State) : Host.Outcome State Fault Refusal :=
  let s := s.advance t
  match s.nv.running with
  | some n => .next (s.transactionEnds n retired recordFails).resetWhenIdle
  | none => .next s

end Sys2Proof.Machine
end

