-- ==== Sys2Proof/Machine/Dispatch.lean ====
section
/-!
DEFINITION. The meaning of each command: one arm per constructor of Instr, each one call of its meaning.
-/
namespace Sys2Proof.Machine

def exec (i : Instr) (s : State) : Host.Outcome State Fault Refusal :=
  match i with
  | .porstNAssert t low => Sys2Proof.Machine.execPorstNAssert t low s
  | .porstNRelease t oscSettle refsel pufOk => Sys2Proof.Machine.execPorstNRelease t oscSettle refsel pufOk s
  | .brownOut t rail dur => Sys2Proof.Machine.execBrownOut t rail dur s
  | .powerLoss t => Sys2Proof.Machine.execPowerLoss t s
  | .oscSettleExpiry t => Sys2Proof.Machine.execOscSettleExpiry t s
  | .crystalCheckDone t kHz => Sys2Proof.Machine.execCrystalCheckDone t kHz s
  | .guylineTrainDone t lanesFC lanesCF => Sys2Proof.Machine.execGuylineTrainDone t lanesFC lanesCF s
  | .memoryTrainDone t gib flashOk chans => Sys2Proof.Machine.execMemoryTrainDone t gib flashOk chans s
  | .bootImageStart t => Sys2Proof.Machine.execBootImageStart t s
  | .pfwNAssert t low => Sys2Proof.Machine.execPfwNAssert t low s
  | .pfwNRelease t high => Sys2Proof.Machine.execPfwNRelease t high s
  | .functionLevelReset t fn => Sys2Proof.Machine.execFunctionLevelReset t fn s
  | .hotReset t => Sys2Proof.Machine.execHotReset t s
  | .referenceLost t r => Sys2Proof.Machine.execReferenceLost t r s
  | .referenceRestored t r => Sys2Proof.Machine.execReferenceRestored t r s
  | .clockSwitchDone t p => Sys2Proof.Machine.execClockSwitchDone t p s
  | .rcTrimMeasurement t count => Sys2Proof.Machine.execRcTrimMeasurement t count s
  | .internalTick t => Sys2Proof.Machine.execInternalTick t s
  | .fsyncEdge t samples => Sys2Proof.Machine.execFsyncEdge t samples s
  | .fsyncDeadlineMissed t => Sys2Proof.Machine.execFsyncDeadlineMissed t s
  | .freeRunTick t => Sys2Proof.Machine.execFreeRunTick t s
  | .frameStartMessage t frame ts => Sys2Proof.Machine.execFrameStartMessage t frame ts s
  | .slotStart t taps => Sys2Proof.Machine.execSlotStart t taps s
  | .pointerReset t tile => Sys2Proof.Machine.execPointerReset t tile s
  | .leadSlotStart t => Sys2Proof.Machine.execLeadSlotStart t s
  | .cutTime t => Sys2Proof.Machine.execCutTime t s
  | .frameClose t => Sys2Proof.Machine.execFrameClose t s
  | .mosaicRowComplete t y => Sys2Proof.Machine.execMosaicRowComplete t y s
  | .deliveryDone t x => Sys2Proof.Machine.execDeliveryDone t x s
  | .portImageDone t p => Sys2Proof.Machine.execPortImageDone t p s
  | .tileWakeExpiry t tile => Sys2Proof.Machine.execTileWakeExpiry t tile s
  | .biasDacUpdate t => Sys2Proof.Machine.execBiasDacUpdate t s
  | .biasSettleExpiry t tile o => Sys2Proof.Machine.execBiasSettleExpiry t tile o s
  | .biasFault t tile o => Sys2Proof.Machine.execBiasFault t tile o s
  | .tileFault t tile => Sys2Proof.Machine.execTileFault t tile s
  | .tenOffExpiry t tile => Sys2Proof.Machine.execTenOffExpiry t tile s
  | .biasCodeWrite t tile o code => Sys2Proof.Machine.execBiasCodeWrite t tile o code s
  | .tpFvRise t tile clk10kHz => Sys2Proof.Machine.execTpFvRise t tile clk10kHz s
  | .digitalLine t tile words => Sys2Proof.Machine.execDigitalLine t tile words s
  | .tpFvFall t tile => Sys2Proof.Machine.execTpFvFall t tile s
  | .tpClkStop t tile => Sys2Proof.Machine.execTpClkStop t tile s
  | .adcRefenWrite t v => Sys2Proof.Machine.execAdcRefenWrite t v s
  | .refReadyExpiry t => Sys2Proof.Machine.execRefReadyExpiry t s
  | .hkRoundDue t => Sys2Proof.Machine.execHkRoundDue t s
  | .hkEntryDone t volts => Sys2Proof.Machine.execHkEntryDone t volts s
  | .hkInjFireWrite t v => Sys2Proof.Machine.execHkInjFireWrite t v s
  | .cDieSensorMeasure t vals => Sys2Proof.Machine.execCDieSensorMeasure t vals s
  | .hkQueueRead t x => Sys2Proof.Machine.execHkQueueRead t x s
  | .hkQEnWrite t v => Sys2Proof.Machine.execHkQEnWrite t v s
  | .throttleStage2Timer t => Sys2Proof.Machine.execThrottleStage2Timer t s
  | .thmResumeWrite t x v => Sys2Proof.Machine.execThmResumeWrite t x v s
  | .flyPulseEnd t tile => Sys2Proof.Machine.execFlyPulseEnd t tile s
  | .flyPosChange t tile level ts => Sys2Proof.Machine.execFlyPosChange t tile level ts s
  | .closeTimeout t tile => Sys2Proof.Machine.execCloseTimeout t tile s
  | .openTimeout t tile => Sys2Proof.Machine.execOpenTimeout t tile s
  | .flysheetComputeDone t tile => Sys2Proof.Machine.execFlysheetComputeDone t tile s
  | .inhibitWindowOpen t tile => Sys2Proof.Machine.execInhibitWindowOpen t tile s
  | .inhibitWindowEnd t tile => Sys2Proof.Machine.execInhibitWindowEnd t tile s
  | .flyTmaxExpiry t tile => Sys2Proof.Machine.execFlyTmaxExpiry t tile s
  | .calImportTmoExpiry t => Sys2Proof.Machine.execCalImportTmoExpiry t s
  | .activationStart t => Sys2Proof.Machine.execActivationStart t s
  | .activationCopyDone t ok => Sys2Proof.Machine.execActivationCopyDone t ok s
  | .activationHoldEnd t => Sys2Proof.Machine.execActivationHoldEnd t s
  | .memoryTagFail t addr rereadOk => Sys2Proof.Machine.execMemoryTagFail t addr rereadOk s
  | .sqTailDoorbell t x tail slots => Sys2Proof.Machine.execSqTailDoorbell t x tail slots s
  | .cqHeadDoorbell t x head => Sys2Proof.Machine.execCqHeadDoorbell t x head s
  | .eqHeadDoorbell t x head => Sys2Proof.Machine.execEqHeadDoorbell t x head s
  | .ringEnable t x => Sys2Proof.Machine.execRingEnable t x s
  | .ringDisable t x => Sys2Proof.Machine.execRingDisable t x s
  | .barRegisterWrite t x r v => Sys2Proof.Machine.execBarRegisterWrite t x r v s
  | .irqHoldoffExpiry t x vec => Sys2Proof.Machine.execIrqHoldoffExpiry t x vec s
  | .commandTimeout t x tag => Sys2Proof.Machine.execCommandTimeout t x tag s
  | .dpDataAccess t x a => Sys2Proof.Machine.execDpDataAccess t x a s
  | .dpBurstAccess t x off a => Sys2Proof.Machine.execDpBurstAccess t x off a s
  | .pegCommandFrame t n frame => Sys2Proof.Machine.execPegCommandFrame t n frame s
  | .pegDataWriteFrame t n addr data => Sys2Proof.Machine.execPegDataWriteFrame t n addr data s
  | .pegDataReadFrame t n addr count => Sys2Proof.Machine.execPegDataReadFrame t n addr count s
  | .nop t x tag => Sys2Proof.Machine.execNop t x tag s
  | .getInfo t x tag sg => Sys2Proof.Machine.execGetInfo t x tag sg s
  | .getRecovery t x tag sg => Sys2Proof.Machine.execGetRecovery t x tag sg s
  | .resetContext t x tag => Sys2Proof.Machine.execResetContext t x tag s
  | .abort t x tag => Sys2Proof.Machine.execAbort t x tag s
  | .eventArm t x tag => Sys2Proof.Machine.execEventArm t x tag s
  | .paramRead t x tag sg => Sys2Proof.Machine.execParamRead t x tag sg s
  | .paramWrite t x tag => Sys2Proof.Machine.execParamWrite t x tag s
  | .paramCommit t x tag => Sys2Proof.Machine.execParamCommit t x tag s
  | .commitEvaluation t => Sys2Proof.Machine.execCommitEvaluation t s
  | .commitNoTickTimeout t => Sys2Proof.Machine.execCommitNoTickTimeout t s
  | .streamStart t x tag => Sys2Proof.Machine.execStreamStart t x tag s
  | .streamStop t x tag => Sys2Proof.Machine.execStreamStop t x tag s
  | .streamStopComplete t x tag => Sys2Proof.Machine.execStreamStopComplete t x tag s
  | .bufferBind t x tag => Sys2Proof.Machine.execBufferBind t x tag s
  | .bufferRelease t x tag => Sys2Proof.Machine.execBufferRelease t x tag s
  | .calImportBegin t x tag => Sys2Proof.Machine.execCalImportBegin t x tag s
  | .calImportChunk t x tag area => Sys2Proof.Machine.execCalImportChunk t x tag area s
  | .calImportEnd t x tag => Sys2Proof.Machine.execCalImportEnd t x tag s
  | .calStatus t x tag sg => Sys2Proof.Machine.execCalStatus t x tag sg s
  | .flyCycle t x tag => Sys2Proof.Machine.execFlyCycle t x tag s
  | .flyInhibit t x tag => Sys2Proof.Machine.execFlyInhibit t x tag s
  | .driftStatus t x tag sg => Sys2Proof.Machine.execDriftStatus t x tag sg s
  | .dataRead t x tag sg => Sys2Proof.Machine.execDataRead t x tag sg s
  | .dataWrite t x tag area => Sys2Proof.Machine.execDataWrite t x tag area s
  | .nvRead t x tag sg => Sys2Proof.Machine.execNvRead t x tag sg s
  | .nvWrite t x tag area => Sys2Proof.Machine.execNvWrite t x tag area s
  | .nvCommit t x tag => Sys2Proof.Machine.execNvCommit t x tag s
  | .nvUnlock t x tag => Sys2Proof.Machine.execNvUnlock t x tag s
  | .nvAutocommitExpiry t => Sys2Proof.Machine.execNvAutocommitExpiry t s
  | .nvCommitDone t retired recordFails => Sys2Proof.Machine.execNvCommitDone t retired recordFails s
  | .ledgerRead t x tag sg => Sys2Proof.Machine.execLedgerRead t x tag sg s
  | .ledgerClosePeriod t x tag => Sys2Proof.Machine.execLedgerClosePeriod t x tag s
  | .ledgerHostTimeWrite t h => Sys2Proof.Machine.execLedgerHostTimeWrite t h s
  | .operatingMinute t => Sys2Proof.Machine.execOperatingMinute t s
  | .ledgerSecond t => Sys2Proof.Machine.execLedgerSecond t s
  | .authChallenge t x tag sg => Sys2Proof.Machine.execAuthChallenge t x tag sg s
  | .authResponse t x tag => Sys2Proof.Machine.execAuthResponse t x tag s
  | .authChallengeExpiry t x => Sys2Proof.Machine.execAuthChallengeExpiry t x s
  | .authLockoutEnd t x => Sys2Proof.Machine.execAuthLockoutEnd t x s
  | .attest t x tag sg => Sys2Proof.Machine.execAttest t x tag sg s
  | .ownerProvision t x tag => Sys2Proof.Machine.execOwnerProvision t x tag s
  | .fwDownload t x tag area => Sys2Proof.Machine.execFwDownload t x tag area s
  | .fwVerify t x tag => Sys2Proof.Machine.execFwVerify t x tag s
  | .fwActivate t x tag => Sys2Proof.Machine.execFwActivate t x tag s
  | .fwRestartDelay t => Sys2Proof.Machine.execFwRestartDelay t s
  | .fwConfirm t x tag => Sys2Proof.Machine.execFwConfirm t x tag s
  | .fwConfirmTimeout t => Sys2Proof.Machine.execFwConfirmTimeout t s
  | .pairJoin t x tag peer => Sys2Proof.Machine.execPairJoin t x tag peer s
  | .pairJoinTimeout t => Sys2Proof.Machine.execPairJoinTimeout t s
  | .pairStatus t x tag sg => Sys2Proof.Machine.execPairStatus t x tag sg s
  | .pairHandover t x tag => Sys2Proof.Machine.execPairHandover t x tag s
  | .perfSnapshot t x tag sg => Sys2Proof.Machine.execPerfSnapshot t x tag sg s
  | .snapshotWritten t => Sys2Proof.Machine.execSnapshotWritten t s
  | .sampleRead t x tag sg => Sys2Proof.Machine.execSampleRead t x tag sg s
  | .debugUnlock t x tag sg => Sys2Proof.Machine.execDebugUnlock t x tag sg s
  | .debugNonceExpiry t => Sys2Proof.Machine.execDebugNonceExpiry t s
  | .debugTimeExpiry t => Sys2Proof.Machine.execDebugTimeExpiry t s
  | .tapInstruction t ins => Sys2Proof.Machine.execTapInstruction t ins s
  | .dbgAccess t r => Sys2Proof.Machine.execDbgAccess t r s
  | .lockRevoked t core lock => Sys2Proof.Machine.execLockRevoked t core lock s
  | .auxSubmitWrite t x cam v => Sys2Proof.Machine.execAuxSubmitWrite t x cam v s
  | .auxProcessStart t => Sys2Proof.Machine.execAuxProcessStart t s
  | .auxFrameDone t => Sys2Proof.Machine.execAuxFrameDone t s
  | .replayStart t x => Sys2Proof.Machine.execReplayStart t x s
  | .captureStart t x => Sys2Proof.Machine.execCaptureStart t x s
  | .replayStop t x => Sys2Proof.Machine.execReplayStop t x s
  | .replayFrameStart t => Sys2Proof.Machine.execReplayFrameStart t s
  | .replayFrameDone t => Sys2Proof.Machine.execReplayFrameDone t s
  | .pegXferWrite t n v => Sys2Proof.Machine.execPegXferWrite t n v s
  | .pegPrdyHigh t n rx => Sys2Proof.Machine.execPegPrdyHigh t n rx s
  | .pegPrdyTimeout t n => Sys2Proof.Machine.execPegPrdyTimeout t n s
  | .pegTransferDone t n => Sys2Proof.Machine.execPegTransferDone t n s
  | .pegSlaveByte t n rx => Sys2Proof.Machine.execPegSlaveByte t n rx s
  | .pegSsNRise t n => Sys2Proof.Machine.execPegSsNRise t n s
  | .perfEvselWrite t u j v => Sys2Proof.Machine.execPerfEvselWrite t u j v s
  | .perfCtlWrite t u v => Sys2Proof.Machine.execPerfCtlWrite t u v s
  | .perfClearWrite t v => Sys2Proof.Machine.execPerfClearWrite t v s
  | .sampleCfgWrite t v => Sys2Proof.Machine.execSampleCfgWrite t v s
  | .linkFlitReceived t d flit => Sys2Proof.Machine.execLinkFlitReceived t d flit s
  | .linkAckTimer t d => Sys2Proof.Machine.execLinkAckTimer t d s
  | .linkAckTimeout t d => Sys2Proof.Machine.execLinkAckTimeout t d s
  | .linkReplayWindow t d => Sys2Proof.Machine.execLinkReplayWindow t d s
  | .linkRetrainDone t d lanesIn lanesOut lost => Sys2Proof.Machine.execLinkRetrainDone t d lanesIn lanesOut lost s
  | .sidebandWordReceived t w word => Sys2Proof.Machine.execSidebandWordReceived t w word s
  | .class0Message t w num code detail cause => Sys2Proof.Machine.execClass0Message t w num code detail cause s
  | .heartbeatSend t => Sys2Proof.Machine.execHeartbeatSend t s
  | .aliveWatchdogExpiry t => Sys2Proof.Machine.execAliveWatchdogExpiry t s
  | .heartbeatReceived t h => Sys2Proof.Machine.execHeartbeatReceived t h s
  | .pairDetectionSample t lastEdge => Sys2Proof.Machine.execPairDetectionSample t lastEdge s
  | .pairTownRaise t => Sys2Proof.Machine.execPairTownRaise t s
  | .peerRstRelease t => Sys2Proof.Machine.execPeerRstRelease t s
  | .pairTickMessage t m => Sys2Proof.Machine.execPairTickMessage t m s
  | .handoverMessage t m => Sys2Proof.Machine.execHandoverMessage t m s
  | .rowExchange t hdr words => Sys2Proof.Machine.execRowExchange t hdr words s
  | .tileStateRecord t tile rec => Sys2Proof.Machine.execTileStateRecord t tile rec s
  | .driftMirror t tile item => Sys2Proof.Machine.execDriftMirror t tile item s
  | .forwardedReply t ok x m => Sys2Proof.Machine.execForwardedReply t ok x m s
  | .pairParamSync t ok m => Sys2Proof.Machine.execPairParamSync t ok m s
  | .pairBundleTransfer t ok m => Sys2Proof.Machine.execPairBundleTransfer t ok m s
  | .pllLocked t p => Sys2Proof.Machine.execPllLocked t p s
  | .pciePerstNChange t high => Sys2Proof.Machine.execPciePerstNChange t high s
  | .pegSsNFall t n => Sys2Proof.Machine.execPegSsNFall t n s
  | .ringDmaError t x => Sys2Proof.Machine.execRingDmaError t x s

end Sys2Proof.Machine
end

