-- ==== Sys2Proof/Safety.lean ====
section
/-!
DEFINITION. What counts as a safe run: the form of State that every step keeps, and runs that never stop.
-/
namespace Sys2Proof.Machine

/-- The register file's canonical form: keys rise, every key is the ID of a parameter, and no value equals the parameter's reset
value. -/
def regsWf (regs : List (Nat × Word)) : Bool :=
  keysRise none regs && regs.all fun e =>
    match paramOf e.1 with
    | some (p, i) => e.2 != BitVec.ofNat 32 (p.reset i)
    | none => false

/-- Memory and the register file are in canonical form. -/
def State.Inv (s : State) : Prop := cellsWf s.mem.cells = true ∧ regsWf s.regs = true

/-- What an outcome leaves: a next state that meets P. -/
def Leaves (P : State → Prop) : Host.Outcome State Fault Refusal → Prop
  | .next s => P s
  | .fault _ => False
  | .refused _ => False

/-- A command runs: it answers a next state. -/
def Runs (i : Instr) (s : State) : Prop := ∃ s', exec i s = .next s'

/-- Two memories answer every read of one byte alike. -/
def SameMem (a b : State) : Prop := ∀ n, cellByte b.mem.cells n = cellByte a.mem.cells n

/-- What telling the hosts may change, and nothing else: contexts, counters, generations of tags, peg frames and their way over the
guyline, the record of output, what goes to the peer of a pair, and the events that wait for a halted core. s' is s but for those. -/
def Reports (s s' : State) : Prop :=
  s' = { s with
    ctxs := s'.ctxs, regs := s'.regs, gens := s'.gens, perf := s'.perf, pegs := s'.pegs, out := s'.out
    links := { s.links with cf := s'.links.cf, vx := s'.links.vx }, pair := { s.pair with sent := s'.pair.sent }
    dbg := { s.dbg with heldEvents := s'.dbg.heldEvents } }

/-- The commands and events of the tiles, the bias outputs, the digital ports, housekeeping and the flysheet that only
sense and drive. -/
def sensing (i : Instr) : Bool :=
  match i with
  | .slotStart _ _ | .pointerReset _ _ | .leadSlotStart _ | .tileWakeExpiry _ _ | .biasDacUpdate _ | .biasSettleExpiry _ _ _
  | .biasFault _ _ _ | .tileFault _ _ | .tenOffExpiry _ _ | .biasCodeWrite _ _ _ _ | .tpFvRise _ _ _ | .digitalLine _ _ _
  | .tpFvFall _ _ | .tpClkStop _ _ | .adcRefenWrite _ _ | .refReadyExpiry _ | .hkRoundDue _ | .hkInjFireWrite _ _
  | .hkQueueRead _ _ | .hkQEnWrite _ _ | .throttleStage2Timer _ | .flyPulseEnd _ _ | .flyPosChange _ _ _ _
  | .closeTimeout _ _ | .openTimeout _ _ | .inhibitWindowOpen _ _ | .inhibitWindowEnd _ _ | .flyTmaxExpiry _ _
  | .flyCycle _ _ _ | .flyInhibit _ _ _ => true
  | _ => false

end Sys2Proof.Machine
end

