-- ==== Sys2Proof/Certificates/Slice0/Obligations.lean ====
section
/-!
DEFINITION. The statements for the provers, one Prop for each.
-/
open Sys2Proof Sys2Proof.Machine

/-! The queue, the time base, canonical form, the header, the register file and memory. -/

/-- The front command of the queue acts on the state with the rest of the queue; an empty queue idles (the model's choice, log 1). -/
def Obligations.StepRunsTheFrontCommand : Prop :=
  (∀ (c : Instr) (rest : List Instr) (s : State), s.pending = c :: rest → step s = exec c { s with pending := rest })
    ∧ ∀ s : State, s.pending = [] → step s = .next s

/-- No command adds to the queue, removes from it or reorders it. -/
def Obligations.CommandsLeaveTheQueueAlone : Prop :=
  ∀ (i : Instr) (s s' : State), exec i s = .next s' → s'.pending = s.pending

/-- The time base is 0 at PORST_N release, and no other command takes it back, a self reset among them (R352). -/
def Obligations.TimeBaseOnlyRestartsAtPorstRelease : Prop :=
  (∀ (t : Time) (o r : Fin 4) (ok : Bool) (s : State), s.boot = .inReset ∨ s.boot = .unpowered →
      ∃ s', exec (.porstNRelease t o r ok) s = .next s' ∧ s'.time = 0)
    ∧ ∀ (i : Instr) (s s' : State), exec i s = .next s' →
        (∀ (t : Time) (o r : Fin 4) (ok : Bool), i = .porstNRelease t o r ok → s.boot ≠ .inReset ∧ s.boot ≠ .unpowered) →
          s.time ≤ s'.time

/-- Memory and the register file stay in canonical form, whatever command acts. -/
def Obligations.EveryStepKeepsCanonicalForm : Prop :=
  ∀ s s' : State, s.Inv → step s = .next s' → s'.Inv

/-- The state after reset is in canonical form, with an empty queue, and holds the values that the spec's tables give for the reset
column, while PORST_N is low. -/
def Obligations.ResetStateIsCanonicalWithItsValues : Prop :=
  State.reset.Inv ∧ State.reset.pending = [] ∧
  State.reset.boot = .inReset ∧ State.reset.tick.state = .internal ∧ State.reset.tick.frameNum = 0
    ∧ (∀ x : Ctx, (State.reset.ctx x).irqMask = 7 ∧ (State.reset.ctx x).irqStatus = 0 ∧ (State.reset.ctx x).ringsOn = false
        ∧ (State.reset.ctx x).evtMask = 0 ∧ (State.reset.ctx x).mv.started = false)
    ∧ (∀ t : Tile, (State.reset.tile t).mode = .off ∧ (State.reset.tile t).ten = false ∧ (State.reset.tile t).vdet.settled = true
        ∧ (State.reset.tile t).vdet.level = 0 ∧ (State.reset.dr t).step = .off ∧ (State.reset.dr t).drive = .off
        ∧ (State.reset.dr t).tsFly = 0)
    ∧ (∀ tag : Nat, State.reset.genOf tag = 0) ∧ State.reset.links.gln = .down ∧ State.reset.links.width = 0x44
    ∧ State.reset.par .tickPeriod = 1666667 ∧ State.reset.nv.lock = 0
    ∧ State.reset.perf.lfsr = 1

/-- A header of Table 9.7 and its 32 bytes spell each other, reserved bits and all. -/
def Obligations.HeaderAndBytesAgree : Prop :=
  (∀ (h : Header) (rest : Bytes), h.fits = true → h.bytes.length = 32 ∧ parseHeader (h.bytes ++ rest) = h)
    ∧ ∀ b : Bytes, b.length = 32 → (parseHeader b).fits = true ∧ (parseHeader b).bytes = b

/-- A store of bytes is read back whole, leaves every other byte, and keeps the canonical form. A parameter takes the value written to
it; every other member of every parameter keeps its own. -/
def Obligations.WritesReadBackAndLeaveTheRest : Prop :=
  (∀ (s : State) (a : Nat) (b : Bytes), cellsWf s.mem.cells = true →
    (s.writeMem a b).readMem a b.length = b ∧ cellsWf (s.writeMem a b).mem.cells = true
      ∧ ∀ n : Nat, n < a ∨ a + b.length ≤ n → cellByte (s.writeMem a b).mem.cells n = cellByte s.mem.cells n)
    ∧ ∀ (s : State) (p : Param) (i v : Nat), regsWf s.regs = true → i < p.row.count → v < 2 ^ 32 →
      (s.setPar p i v).par p i = v ∧ regsWf (s.setPar p i v).regs = true
        ∧ ∀ (q : Param) (j : Nat), q.id j ≠ p.id i → (s.setPar p i v).par q j = s.par q j

/-- The commands and events that only sense and drive store nothing in external memory or the NV store, and reach neither the keys, the
calibration bundle, the ledger nor what runs; in the debug unit only an event may come to wait for a halted core (R416). -/
def Obligations.SensingReachesNoStore : Prop :=
  ∀ (i : Instr) (s s' : State), sensing i = true → exec i s = .next s' →
    s'.mem = s.mem ∧ s'.nv = s.nv ∧ s'.sec = s.sec ∧ s'.bundle = s.bundle ∧ s'.session = s.session ∧ s'.act = s.act
      ∧ s'.ledger = s.ledger ∧ s'.boot = s.boot ∧ s'.dbg = { s.dbg with heldEvents := s'.dbg.heldEvents }

/-! Ticks, frames, records and deliveries (chapters 1, 7 and 9). -/

/-- Where ticks come from: the internal generator and free run at their scheduled times, accepted edges, and a missed deadline. An edge
is the third consecutive active sample of FSYNC after three inactive ones, stamped with the first; in state INTERNAL it is ignored
without a count (the model's choice, log 100). One of two ticks is dropped while D is 2, of edges in LOCKED only (the model's choice,
log 18), and a PARTNER takes none of its own (R329). A frame start reaches the C-die over lanes that are up. -/
def Obligations.TicksComeFromTheirSource : Prop :=
  ∀ (t : Time) (s : State), s.tick.running = true →
    let a := s.advance t
    (s.tick.state = .internal →
      (max s.time t < s.tick.next → exec (.internalTick t) s = .next a)
      ∧ (s.tick.next ≤ max s.time t →
        (s.tick.d2 = true → s.tick.skip = true → exec (.internalTick t) s = .next { a with
          tick := { s.tick with skip := false, next := s.tick.next + 10 * s.par .tickPeriod } })
        ∧ (s.tick.d2 = false → s.pair.mode = .paired → s.pair.role = 1 → exec (.internalTick t) s = .next { a with
          tick := { s.tick with skip := false, next := s.tick.next + 10 * s.par .tickPeriod } })
        ∧ (s.tick.d2 = false ∨ s.tick.skip = false → s.ownTicks = true → ∃ s', exec (.internalTick t) s = .next s'
          ∧ ∀ u : State, u = a.frameTick s.tick.next false false none →
            s' = { u with tick := { u.tick with
              skip := u.tick.d2, next := if u.tick.state = .internal then s.tick.next + 10 * u.par .tickPeriod else u.tick.next } })))
    ∧ (∀ level : Bool, level = (s.par .fsyncPol == 1) ∨ s.tick.fsArmed = false ∨ s.tick.fsLevel ≠ level ∨ s.tick.fsRun < 2 →
        exec (.fsyncEdge t [level]) s = .next { a with tick := { s.tick with
          fsLevel := level, fsRun := if level = s.tick.fsLevel then min 3 (s.tick.fsRun + 1) else 1
          fsArmed := s.tick.fsArmed
            || (level == (s.par .fsyncPol == 1) && (if level = s.tick.fsLevel then min 3 (s.tick.fsRun + 1) else 1) == 3) } })
    ∧ (s.tick.fsArmed = true → s.tick.fsLevel = !(s.par .fsyncPol == 1) → 2 ≤ s.tick.fsRun →
      let ts := t - 20
      let b : State := { a with tick := { s.tick with fsRun := 3, fsArmed := false } }
      let edge := Instr.fsyncEdge t [!(s.par .fsyncPol == 1)]
      (s.tick.state = .internal → exec edge s = .next b)
      ∧ (s.tick.state ≠ .internal → s.tooEarly ts = true → ∃ s', exec edge s = .next s' ∧ s'.frames = s.frames ∧ s'.seq = s.seq
        ∧ s'.tick = (if s.tick.state = .freeRun then { b.tick with state := .resync } else b.tick)
        ∧ (regsWf s.regs = true → s'.par .fsyncEarlyCnt = min 0xFFFFFFFF (s.par .fsyncEarlyCnt + 1)))
      ∧ (s.tick.state ≠ .internal → s.tooEarly ts = false →
        let c := ({ b with tick := { b.tick with state := .locked } } : State).countInterval
        (s.tick.d2 = true → s.tick.skip = true → s.tick.state = .locked → exec edge s = .next { c with
          tick := { c.tick with skip := false, suppressed := some ts } })
        ∧ (s.tick.d2 = false ∨ s.tick.skip = false ∨ s.tick.state ≠ .locked → s.ownTicks = true → ∃ s', exec edge s = .next s'
          ∧ ∀ u : State, u = c.frameTick ts true false none → s' = { u with tick := { u.tick with skip := u.tick.d2 } })))
    ∧ (s.tick.state = .freeRun → s.tick.next ≤ max s.time t → s.ownTicks = true → ∃ s', exec (.freeRunTick t) s = .next s'
        ∧ ∀ u : State, u = a.frameTick s.tick.next false true none →
          s' = { u with tick := { u.tick with
            skip := false, next := if u.tick.state = .freeRun then s.tick.next + u.expected else u.tick.next } })
    ∧ (∀ due : Time, s.deadline = some due →
        (max s.time t < due + 20 → exec (.fsyncDeadlineMissed t) s = .next a)
        ∧ (due + 20 ≤ max s.time t →
          (s.tick.state = .resync → exec (.fsyncDeadlineMissed t) s = .next (a.missedTick due false))
          ∧ (s.tick.state ≠ .resync → s.par .fsyncLossPolicy = 1 → ∃ s', exec (.fsyncDeadlineMissed t) s = .next s'
            ∧ s'.tick = { s.tick with state := .hold } ∧ s'.frames = s.frames ∧ s'.drift = s.drift ∧ s'.mem = s.mem)
          ∧ (s.tick.state ≠ .resync → s.par .fsyncLossPolicy = 0 → ∃ s', exec (.fsyncDeadlineMissed t) s = .next s'
            ∧ ∀ u : State, u = (a.missedTick due false).bump .tickMissingCnt →
              s' = u.fdieEvent 0x0200 (leBytes 4 3 ++ leBytes 4 (u.expected / 10)))))
    ∧ ∀ (n : Nat) (ts : Time),
        (s.linkUp .fc = true → s.seq.frame = some (n, ts) →
          exec (.frameStartMessage t n ts) s = .next { a with seq := { s.seq with cdie := some (n, ts) } })
        ∧ (s.linkUp .fc = false ∨ s.seq.frame ≠ some (n, ts) → exec (.frameStartMessage t n ts) s = .next a)

/-- A numbered tick opens one frame with its number and timestamp, owed to the contexts whose streams are started, and the sequencer
reads that frame. -/
def Obligations.NumberedTicksOpenOneFrame : Prop :=
  ∀ (s : State) (ts : Time) (prev : Option Time) (accepted free : Bool),
    let s' := s.numberedTick ts prev accepted free
    ∃ f : Frame, s'.frames = s.frames ++ [f] ∧ f.num = s.tick.nextFrame ∧ f.ts = ts ∧ f.accepted = accepted ∧ f.freeRun = free
      ∧ f.body = none ∧ (∀ d ∈ f.deliveries, d.done = false)
      ∧ (∀ x : Ctx, (s.ctx x).mv.started = true ↔ ∃ d ∈ f.deliveries, d.ctx = x)
      ∧ s'.seq = { s.seq with frame := some (s.tick.nextFrame, ts) }
      ∧ s'.tick = { s.tick with nextFrame := (s.tick.nextFrame + 1) % 2 ^ 48 } ∧ s'.tiles = s.tiles ∧ s'.nv = s.nv

/-- The frame being read ends once it is whole or at the cut, and no frame is being read afterwards; other frames stay as they are.
A complete row is written to the staging area of its frame number and nowhere else in memory (the place is the model's, log 49).
A delivery holds its buffer set, and a port goes idle after its image. -/
def Obligations.FramesCloseAndLeave : Prop :=
  ∀ (t : Time) (s : State),
    let a := s.advance t
    (s.reading = none → exec (.cutTime t) s = .next a ∧ exec (.frameClose t) s = .next a
      ∧ ∀ y : Nat, exec (.mosaicRowComplete t y) s = .next a)
    ∧ (∀ f : Frame, s.reading = some f → (∀ g ∈ s.frames, g.num = f.num → g.body = none) →
        (s.cutOf f.ts ≤ max s.time t → ∃ s', exec (.cutTime t) s = .next s' ∧ s'.reading = none ∧ s'.tick = s.tick
          ∧ s'.tiles = s.tiles ∧ s'.nv = s.nv ∧ ∀ g ∈ s.frames, g.num ≠ f.num → g ∈ s'.frames)
        ∧ (max s.time t < s.cutOf f.ts → exec (.cutTime t) s = .next a)
        ∧ (s.frameWhole f = true → ∃ s', exec (.frameClose t) s = .next s' ∧ s'.reading = none ∧ s'.tick = s.tick
          ∧ s'.tiles = s.tiles ∧ s'.nv = s.nv ∧ ∀ g ∈ s.frames, g.num ≠ f.num → g ∈ s'.frames)
        ∧ (s.frameWhole f = false → exec (.frameClose t) s = .next a)
        ∧ ∀ y : Nat, y < s.tick.mosaicH → f.rowsDone.contains y = false →
          ((∀ e ∈ s.tilesOfRow f y, s.rowFate e.1 (f.tile e.1) e.2 ≠ .notYet) → ∃ s', exec (.mosaicRowComplete t y) s = .next s'
            ∧ s'.frames.length = s.frames.length ∧ (∃ g, s'.frameOf f.num = some g ∧ g.body = none ∧ y ∈ g.rowsDone)
            ∧ s'.drift = s.drift ∧ s'.tick = s.tick
            ∧ (cellsWf s.mem.cells = true → ∀ n : Nat, n < stagingAddr (f.num % 2) ∨ (s.stagedAt f.num).2 ≤ n →
                cellByte s'.mem.cells n = cellByte s.mem.cells n))
          ∧ ((∃ e ∈ s.tilesOfRow f y, s.rowFate e.1 (f.tile e.1) e.2 = .notYet) → exec (.mosaicRowComplete t y) s = .next a))
    ∧ (∀ (x : Ctx) (f : Frame) (body : Bytes) (d : Delivery), x.val < s.ctxs.length →
        (s.frames.find? fun f => f.body.isSome && f.deliveries.any fun d => d.ctx == x && !d.done) = some f → f.body = some body →
        (f.deliveries.find? fun d => d.ctx == x && !d.done) = some d → ∃ s', exec (.deliveryDone t x) s = .next s'
          ∧ s' = a.deliver f body d none ∧ s'.tiles = s.tiles ∧ s'.drift = s.drift
          ∧ ∀ n : Nat, d.set = some n → n < (s.ctx x).sets.length → ((s'.ctx x).sets.getD n .reset).state = .held)
    ∧ ∀ p : Fin 2, ((s.outs.getD p.val .reset).sending = none → exec (.portImageDone t p) s = .next a)
        ∧ ∀ (n : Nat) (f : Frame) (body : Bytes) (x : Ctx), p.val < s.outs.length → (s.outs.getD p.val .reset).sending = some n →
          s.frameOf n = some f → f.body = some body → f.ports.getD p.val none = some x →
          ∃ s', exec (.portImageDone t p) s = .next s' ∧ (s'.outs.getD p.val .reset).sending = none
            ∧ (s'.outs.getD p.val .reset).state = 1 ∧ s'.mem = s.mem ∧ s'.ctxs = s.ctxs ∧ s'.tiles = s.tiles

/-! Tiles, bias outputs and digital ports (chapter 2). -/

/-- Slots read the rows in order: a slot moves the position by one and the row pointers with it, a pointer reset goes back to row f, and
the lead slot integrates row f and starts the watch of R70 anew on every enabled tile, a digital one too (the model's choice, log 104).
None of them acts before its place on the grid of the tick. A TROW rise into an open window discards the integration and leaves the
holds. -/
def Obligations.SlotsReadRowsInOrder : Prop :=
  ∀ (t : Time) (taps : List (List Nat)) (s : State), s.tiles.length = 8 → regsWf s.regs = true →
    let a := s.advance t
    let now := max s.time t
    let held (u : Tile) (at_ : Time) : Option Nat :=
      if (s.tile u).wave.integrating at_ = true then (s.tile u).holds else (s.tile u).integ
    (∀ (frame : Nat) (ts : Time), s.seq.frame = some (frame, ts) →
      (s.pair.rewind = none → s.seq.slot < s.slots → s.slotAt ts s.seq.slot ≤ now →
        ∃ s', exec (.slotStart t taps) s = .next s' ∧ s'.seq.slot = s.seq.slot + 1 ∧ s'.seq.frame = s.seq.frame
          ∧ s'.seq.lead = s.seq.lead ∧ s'.mem = s.mem ∧ s'.drift = s.drift ∧ s'.nv = s.nv
          ∧ ∀ u : Tile, s.drives u = true → s.isDigital u = false → s.seq.slot < s.tileRows u → (s.tile u).control = true →
              (s'.tile u).rowPtr = s.firstRow u + s.seq.slot + 1 ∧ (s'.tile u).holds = held u (s.slotAt ts s.seq.slot)
                ∧ (s'.tile u).wave = s.analogWave u s.seq.slot (s.slotAt ts s.seq.slot) ∧ (s'.tile u).vdet = (s.tile u).vdet)
      ∧ (s.slots ≤ s.seq.slot ∨ now < s.slotAt ts s.seq.slot → exec (.slotStart t taps) s = .next a)
      ∧ ∀ u : Tile, s.drives u = true → s.isDigital u = false → s.seq.pointers.getLsbD u = false →
        (s.slotAt ts (s.slotsOf u) ≤ now → ∃ s', exec (.pointerReset t u) s = .next s'
          ∧ ((s.tile u).control = true → (s'.tile u).integ = none ∧ (s'.tile u).rowPtr = s.firstRow u
            ∧ (s'.tile u).wave = s.resetWave u (s.slotAt ts (s.slotsOf u)))
          ∧ s'.seq.pointers.getLsbD u = true ∧ (∀ v : Tile, v ≠ u → s'.tile v = s.tile v) ∧ s'.mem = s.mem
          ∧ (s.seq.sampling = [] → s'.frames = s.frames ∧ s'.regs = s.regs))
        ∧ (now < s.slotAt ts (s.slotsOf u) → exec (.pointerReset t u) s = .next a))
    ∧ ∀ at_ : Time, s.seq.lead = some at_ →
      (now < at_ → exec (.leadSlotStart t) s = .next a)
      ∧ (at_ ≤ now → ∃ s', exec (.leadSlotStart t) s = .next s' ∧ s'.regs = s.regs ∧ s'.frames = s.frames ∧ s'.mem = s.mem
        ∧ s'.seq = { s.seq with lead := some (at_ + s.pBudget) }
        ∧ ∀ u : Tile, (s.tileOn u = true → (s'.tile u).unsettled = !(s.tile u).allSettled)
          ∧ (s.tileOn u = false → s'.tile u = s.tile u)
          ∧ (s.drives u = true → s.isDigital u = false → (s.tile u).control = true →
              (s'.tile u).integ = some (s.firstRow u) ∧ (s'.tile u).holds = held u at_ ∧ (s'.tile u).firstMissing = false))

/-- The power-up and shutdown sequence of a tile: VGUARD slews alone once TILE_WAKE has passed, VDET and VSKIM as well from the update
in which it is there; each moves by one step of BIAS_SLEW in an update, every 100 ns. 50 µs after its arrival an output is settled, and
with the last one the tile is ready. At a shutdown VDET and VSKIM ramp to 0 V first, then VGUARD, with the step of BIAS_SLEW or of 10
mV/µs; TEN falls 50 µs after VGUARD reached 0 V. What VDET and VSKIM do while VGUARD moves to a new target is the model's choice (log
103). -/
def Obligations.TilePowerSequence : Prop :=
  ∀ (t : Time) (u : Tile) (s : State), u.val < s.tiles.length →
    let a := s.advance t
    let now := max s.time t
    let k := s.tile u
    let slew := s.par .biasSlew u * 655360
    (k.mode = .waking → k.ramp = 0 →
      (k.wakeAt + 1000 * s.par .tileWake u ≤ now → exec (.tileWakeExpiry t u) s
        = .next (a.modTile u fun k => { k with mode := .biasing, woken := true }))
      ∧ (now < k.wakeAt + 1000 * s.par .tileWake u → exec (.tileWakeExpiry t u) s = .next a))
    ∧ (s.tiles.length = 8 → (∀ z : Time, s.seq.dacAt = some z → z + s.dacPeriod ≤ now) →
        ∃ s', exec (.biasDacUpdate t) s = .next s' ∧ s'.tiles.length = 8
        ∧ s'.regs = s.regs ∧ s'.frames = s.frames ∧ s'.mem = s.mem ∧ s'.seq = { s.seq with dacAt := some now }
        ∧ (k.ramp = 0 →
          (k.mode = .off ∨ k.mode = .waking ∨ k.mode = .fault → s'.tile u = k)
          ∧ (k.mode = .biasing →
            (s'.tile u).vguard.level = moveTo (s.biasTarget u .vguard) slew k.vguard.level
            ∧ ((s'.tile u).vguard.level ≠ s.biasTarget u .vguard → (s'.tile u).vdet = k.vdet ∧ (s'.tile u).vskim = k.vskim)
            ∧ ((s'.tile u).vguard.level = s.biasTarget u .vguard →
              (s'.tile u).vdet.level = moveTo (s.biasTarget u .vdet) slew k.vdet.level
              ∧ (s'.tile u).vskim.level = moveTo (s.biasTarget u .vskim) slew k.vskim.level))
          ∧ (k.mode = .ready →
            (s'.tile u).vdet.level = moveTo (s.biasTarget u .vdet) slew k.vdet.level
            ∧ (s'.tile u).vskim.level = moveTo (s.biasTarget u .vskim) slew k.vskim.level
            ∧ (s'.tile u).vguard.level = moveTo (s.biasTarget u .vguard) slew k.vguard.level)
          ∧ ∀ o : BiasOut, k.mode = .biasing ∨ k.mode = .ready → ((s'.tile u).bias o).level = s.biasTarget u o →
            (k.bias o).arrived = none → (k.bias o).level ≠ s.biasTarget u o → ((s'.tile u).bias o).arrived = some now)
        ∧ ∀ step : Nat, (k.ramp = 1 ∧ step = slew) ∨ (k.ramp = 2 ∧ step = 65536000) →
          (k.vdet.level ≠ 0 ∨ k.vskim.level ≠ 0 → (s'.tile u).vdet.level = k.vdet.level - step
            ∧ (s'.tile u).vskim.level = k.vskim.level - step ∧ (s'.tile u).vguard = k.vguard ∧ (s'.tile u).zeroAt = k.zeroAt)
          ∧ (k.vdet.level = 0 → k.vskim.level = 0 → (s'.tile u).vguard.level = k.vguard.level - step
            ∧ (s'.tile u).vdet = k.vdet ∧ (s'.tile u).vskim = k.vskim
            ∧ (s'.tile u).zeroAt = if k.vguard.level ≤ step ∧ k.zeroAt = none then some now else k.zeroAt))
    ∧ (∀ z : Time, s.seq.dacAt = some z → now < z + s.dacPeriod → exec (.biasDacUpdate t) s = .next a)
    ∧ (∀ (o : BiasOut) (at_ : Time), (k.bias o).arrived = some at_ → s.tileOn u = true → k.ramp = 0 →
        (at_ + 50000 ≤ now → ∃ s', exec (.biasSettleExpiry t u o) s = .next s' ∧ ((s'.tile u).bias o).settled = true
          ∧ (∀ p : BiasOut, ((s'.tile u).bias p).level = (k.bias p).level)
          ∧ (k.mode = .biasing → (s'.tile u).mode = if (s'.tile u).allSettled then .ready else .biasing)
          ∧ (k.mode ≠ .biasing → (s'.tile u).mode = k.mode)
          ∧ (∀ v : Tile, v ≠ u → s'.tile v = s.tile v) ∧ s'.regs = s.regs ∧ s'.frames = s.frames ∧ s'.mem = s.mem)
        ∧ (now < at_ + 50000 → exec (.biasSettleExpiry t u o) s = .next a))
    ∧ ∀ z : Time, k.ramp ≠ 0 → k.zeroAt = some z →
        (z + 500 * s.dacPeriod ≤ now → exec (.tenOffExpiry t u) s = .next (a.modTile u fun k =>
          { k with ten := false, ramp := 0, zeroAt := none, mode := if k.faulted then .fault else .off }))
        ∧ (now < z + 500 * s.dacPeriod → exec (.tenOffExpiry t u) s = .next a)

/-- A bias code write restarts the settling of its output, a tripped comparator is recorded, and a lasting fault shuts the tile down.
The write needs the guyline (the model's reading of R282, log 126), and the PARTNER of a pair takes none (R331). -/
def Obligations.BiasCodesAndFaults : Prop :=
  ∀ (t : Time) (u : Tile) (o : BiasOut) (s : State), u.val < s.tiles.length →
    (∀ code : BitVec 16, s.isPartner = false → s.fdieUp = true → regsWf s.regs = true →
      ∃ s', exec (.biasCodeWrite t u o code) s = .next s' ∧ s'.par (biasParam o) u = code.toNat ∧ s'.wstatus = .done
        ∧ ((s'.tile u).bias o).level = ((s.tile u).bias o).level ∧ (∀ v : Tile, v ≠ u → s'.tile v = s.tile v) ∧ s'.mem = s.mem
        ∧ (s.tileOn u = true → ((s'.tile u).bias o).settled = false ∧ ((s'.tile u).bias o).arrived = none
          ∧ (s'.tile u).unsettled = true)
        ∧ (s.tileOn u = false → s'.tile u = s.tile u ∧ s'.frames = s.frames))
    ∧ (∀ code : BitVec 16, (s.isPartner = true → exec (.biasCodeWrite t u o code) s
          = .next { s.advance t with wstatus := .notPermitted })
        ∧ (s.isPartner = false → s.fdieUp = false → exec (.biasCodeWrite t u o code) s
          = .next { s.advance t with wstatus := .failedFault }))
    ∧ (∃ s', exec (.biasFault t u o) s = .next s' ∧ ((s'.tile u).bias o).fault = true
        ∧ ((s'.tile u).bias o).level = ((s.tile u).bias o).level
        ∧ (∀ v : Tile, v ≠ u → s'.tile v = s.tile v) ∧ s'.frames = s.frames ∧ s'.mem = s.mem)
    ∧ (s.tileOn u = true → (s.tile u).faulted = false → ((s.tile u).bias o).fault = true → ∃ s', exec (.tileFault t u) s = .next s'
        ∧ (s'.tile u).mode = .fault ∧ (s'.tile u).faulted = true ∧ (s'.tile u).control = false
        ∧ (s'.tile u).wave = .low ∧ ((s.tile u).ten = true → (s'.tile u).ramp = max (s.tile u).ramp 1)
          ∧ (∀ v : Tile, v ≠ u → s'.tile v = s.tile v) ∧ s'.mem = s.mem)

/-- A digital frame: the rise of frame valid, lines of the right length in order, and the drop of a frame that is cut short. -/
def Obligations.DigitalFramesArriveWhole : Prop :=
  ∀ (t : Time) (u : Tile) (s : State), u.val < s.tiles.length → s.readsDigital u = true → s.reading ≠ none →
    let d := (s.tile u).dig
    (∀ clk : Nat, d.seen = false → d.dropped = false → ∃ s', exec (.tpFvRise t u clk) s = .next s'
        ∧ (s'.tile u).dig = { d with fv := true, seen := true, lines := 0, times := [], clk := clk % 65536 }
        ∧ (∀ v : Tile, v ≠ u → s'.tile v = s.tile v) ∧ s'.frames = s.frames ∧ s'.regs = s.regs)
    ∧ (∀ clk : Nat, d.seen = true → d.dropped = false → ∃ s', exec (.tpFvRise t u clk) s = .next s' ∧ (s'.tile u).dig.dropped = true)
    ∧ (∀ words : List (BitVec 16), d.fv = true → d.seen = true → d.dropped = false →
        (words.length = s.lineWords u → d.lines < s.tileRows u → ∃ s', exec (.digitalLine t u words) s = .next s'
          ∧ (s'.tile u).dig = { d with lines := d.lines + 1, times := d.times ++ [max s.time t] }
            ∧ (∀ v : Tile, v ≠ u → s'.tile v = s.tile v) ∧ s'.mem = s.mem
          ∧ ∀ (frame : Nat) (ts : Time), s.seq.frame = some (frame, ts) → s.owns u = true →
              (s.advance t).heldBack u = false → s.par .digFmt u < 64 → ∃ late : Bool,
              s'.links = ((s.advance t).sendVideo (.videoRow frame u d.lines late (words.map (·.toNat)))).links)
        ∧ (words.length ≠ s.lineWords u → ∃ s', exec (.digitalLine t u words) s = .next s'
          ∧ (s'.tile u).dig = { d with dropped := true } ∧ s'.links = s.links ∧ s'.mem = s.mem))
    ∧ (d.fv = true → d.seen = true → d.dropped = false →
        (d.lines < s.tileRows u → ∃ s', exec (.tpFvFall t u) s = .next s' ∧ (s'.tile u).dig = { d with fv := false, dropped := true })
        ∧ (s.tileRows u ≤ d.lines → ∃ s', exec (.tpFvFall t u) s = .next s' ∧ (s'.tile u).dig = { d with fv := false }
          ∧ s'.frames = s.frames ∧ s'.regs = s.regs)
        ∧ ∃ s', exec (.tpClkStop t u) s = .next s' ∧ (s'.tile u).dig = { d with dropped := true } ∧ s'.mem = s.mem)
/-! Housekeeping (chapter 3) and thermal control (chapter 12). -/

/-- The reference buffer is ready 2.0 ms after it is enabled, and at once not ready when it is disabled; samples that convert from then
on follow it (R98, sample by sample in the model's reading, log 39). The register write needs the guyline (the model's reading of R282,
log 126), and a PARTNER takes none (R331). An entry writes its result with a stamp to HK_LAST and sends it to the C-die; where the
queue is on it enters the queue as well, and a full queue drops its oldest word and marks the next with LOSS. A channel of the C-die's
writes the latest value received, stale after 2 ms, or nothing before the first. With the last entry of a round the round ends; an
injected sequence runs ahead of it. -/
def Obligations.ReferenceBufferAndEntryResults : Prop :=
  (∀ (t : Time) (s : State),
      let a := s.advance t
      let now := max s.time t
      let marked (ready : Bool) : Seq := { s.seq with sampling := s.seq.sampling.map fun r => r.remark now ready }
      (s.isPartner = false → s.fdieUp = true →
        (∃ s', exec (.adcRefenWrite t false) s = .next s' ∧ s'.hk = { s.hk with refReady := false, refAt := none }
          ∧ s'.seq = marked false ∧ (regsWf s.regs = true → s'.par .adcRefen = 0) ∧ s'.mem = s.mem ∧ s'.tiles = s.tiles
          ∧ s'.frames = s.frames ∧ s'.wstatus = .done)
        ∧ ∃ s', exec (.adcRefenWrite t true) s = .next s'
          ∧ s'.hk = (if s.par .adcRefen = 0 then { s.hk with refAt := some now } else s.hk) ∧ s'.seq = s.seq
          ∧ (regsWf s.regs = true → s'.par .adcRefen = 1) ∧ s'.mem = s.mem ∧ s'.tiles = s.tiles ∧ s'.frames = s.frames
          ∧ s'.wstatus = .done)
      ∧ (∀ v : Bool, (s.isPartner = true → exec (.adcRefenWrite t v) s = .next { a with wstatus := .notPermitted })
          ∧ (s.isPartner = false → s.fdieUp = false → exec (.adcRefenWrite t v) s = .next { a with wstatus := .failedFault }))
      ∧ ∀ at_ : Time, s.hk.refAt = some at_ → s.par .adcRefen = 1 →
          (at_ + 2000000 ≤ now → exec (.refReadyExpiry t) s = .next { a with
            hk := { s.hk with refReady := true, refAt := none }, seq := marked true })
          ∧ (now < at_ + 2000000 → exec (.refReadyExpiry t) s = .next a))
    ∧ ∀ (t : Time) (volts : List Nat) (e : Nat) (s : State), s.hk.on = true → s.hk.last.length = 32 →
      let a := s.advance t
      let stamp := hkStamp (max s.time t)
      let result (ch v : Nat) (inj stale : Bool) (s' : State) : Prop :=
        let word := v + 4096 * stamp + (if stale then 2 ^ 24 else 0) + 2 ^ 25
        let queued := v + 4096 * ch + (if inj then 0x20000 else 0) + (if stale then 0x80000 else 0) + 2 ^ 20 * stamp
        s'.hk.last = s.hk.last.set ch word
        ∧ s'.links = (a.sendAcross .fc (.hkResult ch word)).links
        ∧ (s.par .hkQEn = 0 → s'.hk.queue = s.hk.queue ∧ s'.regs = s.regs)
        ∧ (s.par .hkQEn = 1 → s.hk.queue.length < 128 → s'.hk.queue = s.hk.queue ++ [queued] ∧ s'.regs = s.regs)
        ∧ (∀ (oldest next : Nat) (rest : List Nat), s.par .hkQEn = 1 → s.hk.queue = oldest :: next :: rest → 126 ≤ rest.length →
            s'.hk.queue = (next ||| 0x40000) :: (rest ++ [queued]) ∧ s'.regs = (a.bump .hkQOvfCnt).regs)
        ∧ s'.tiles = s.tiles ∧ s'.frames = s.frames ∧ s'.mem = s.mem ∧ s'.drift = s.drift
      let entry (tile : Option Nat) (inj : Bool) (s' : State) : Prop :=
        let ch := entryChannel e tile
        (within 6 13 ch = false → result ch (entryValue e ch volts) inj false s')
        ∧ ∀ i : Fin 8, ch = 6 + i.val → (s.hk.remote.getD i.val none = none → s'.hk.last = s.hk.last ∧ s'.hk.queue = s.hk.queue)
          ∧ ∀ (v : Nat) (at_ : Time), s.hk.remote.getD i.val none = some (v, at_) →
            result ch v inj (decide (2000000 < max s.time t - at_)) s'
      (∀ r : List Nat, s.hk.inj = none → s.hk.round = e :: r → ∃ u s', entry none false u ∧ u.hk.round = s.hk.round
          ∧ exec (.hkEntryDone t volts) s = .next s'
          ∧ (within 22 29 (entryChannel e none) = false → r ≠ [] → s' = { u with hk := { u.hk with round := r } })
          ∧ (within 22 29 (entryChannel e none) = false → r = [] →
              s' = ({ u with hk := { u.hk with round := [] } } : State).roundEnd.startWaiting)
          ∧ (r ≠ [] → s'.hk = { u.hk with round := r } ∧ s'.mem = s.mem ∧ s'.tiles = s.tiles))
      ∧ (∀ (j : Injected) (r : List Nat), s.hk.inj = some j → j.entries = e :: r → ∃ u s', entry j.tile true u
          ∧ exec (.hkEntryDone t volts) s = .next s'
          ∧ (within 22 29 (entryChannel e j.tile) = false →
              s' = ({ u with hk := { u.hk with inj := if r = [] then none else some { j with entries := r } } } : State).startWaiting))
      ∧ (∀ j : Injected, s.hk.inj = some j → j.entries = [] →
          exec (.hkEntryDone t volts) s = .next { a with hk := { s.hk with inj := none } })
      ∧ (s.hk.inj = none → s.hk.round = [] → exec (.hkEntryDone t volts) s = .next a)

/-- Rounds, injected triggers, the C-die's values, which cross the guyline or are governed alone while it is down, and the result queue,
which only an authenticated context with stream control reads (R111, R256). Registers of the F-die need the guyline (the model's
reading of R282, log 126). -/
def Obligations.HousekeepingRoundsAndQueue : Prop :=
  ∀ (t : Time) (s : State), s.hk.on = true →
    let a := s.advance t
    (s.hk.due ≤ max s.time t →
      (s.hk.round = [] → s.hk.waiting = false → s.hk.inj = none → s.hk.newCfg = false → exec (.hkRoundDue t) s
        = .next { a with hk := { s.hk with due := s.hk.due + s.hk.period * 100000, round := s.hk.regular } })
      ∧ (s.hk.round ≠ [] → s.hk.waiting = false → ∃ s', exec (.hkRoundDue t) s = .next s'
        ∧ s'.hk = { s.hk with due := s.hk.due + s.hk.period * 100000, waiting := true })
      ∧ (s.hk.waiting = true → ∃ s', exec (.hkRoundDue t) s = .next s'
        ∧ s'.hk = { s.hk with due := s.hk.due + s.hk.period * 100000 }))
    ∧ (∀ v : BitVec 4, (8 ≤ v.toNat → v ≠ 15 → exec (.hkInjFireWrite t v) s = .next { a with wstatus := .badParam })
        ∧ (v.toNat < 8 ∨ v = 15 → s.fdieUp = false → exec (.hkInjFireWrite t v) s = .next { a with wstatus := .failedFault })
        ∧ (v.toNat < 8 ∨ v = 15 → s.fdieUp = true →
          let tile := if v = 15 then none else some v.toNat
          let entries := injectedEntries s.hk.injected tile
          ∃ s', exec (.hkInjFireWrite t v) s = .next s' ∧ s'.wstatus = .done ∧ s'.mem = s.mem ∧ s'.frames = s.frames
            ∧ (bitOf s.hk.trig 3 = true → s.hk.inj = none → entries ≠ [] →
                s'.hk = { s.hk with inj := some { entries := entries, tile := tile, start := max s.time t, source := 3 } })
            ∧ (bitOf s.hk.trig 3 = false ∨ (s.hk.inj = none ∧ entries = []) → s'.hk = s.hk)))
    ∧ (∀ vals : List Nat,
        (s.links.gln ≠ .down → exec (.cDieSensorMeasure t vals) s
          = .next (a.sendAcross .cf (.sensors ((vals.take 8).map (min 4095)))))
        ∧ (s.links.gln = .down → exec (.cDieSensorMeasure t vals) s
          = .next (a.thermalReading (((List.range 8).filter fun i => !s.sensorBroken (6 + i) && i < vals.length).map fun i =>
              (6 + i, min 4095 (vals.getD i 0))))))
    ∧ (∀ v : Bool,
        (s.isPartner = false → s.fdieUp = true → ∃ s', exec (.hkQEnWrite t v) s = .next s'
          ∧ s'.hk = (if v then s.hk else { s.hk with queue := [] }) ∧ s'.wstatus = .done ∧ s'.mem = s.mem)
        ∧ (s.isPartner = true → exec (.hkQEnWrite t v) s = .next { a with wstatus := .notPermitted })
        ∧ (s.isPartner = false → s.fdieUp = false → exec (.hkQEnWrite t v) s = .next { a with wstatus := .failedFault }))
    ∧ ∀ x : Ctx, (s.isAuth x = true → s.streamControl x = true → s.fdieUp = true →
        let id := Param.hkQueue.id 0
        let ask := a.sendAcross .cf (.values [(id, 0)])
        (∀ (w : Nat) (r : List Nat), s.hk.queue = w :: r → exec (.hkQueueRead t x) s
          = .next { ask.sendAcross .fc (.values [(id, BitVec.ofNat 32 w)]) with
            hk := { s.hk with queue := r }, out := s.out ++ [.busRead x (BitVec.ofNat 32 w)], wstatus := .done })
        ∧ (s.hk.queue = [] → exec (.hkQueueRead t x) s
          = .next { ask.sendAcross .fc (.values [(id, 0xFFFFFFFF)]) with
            out := s.out ++ [.busRead x 0xFFFFFFFF], wstatus := .done }))
      ∧ (s.isAuth x = true → s.streamControl x = true → s.fdieUp = false →
          exec (.hkQueueRead t x) s = .next { a with wstatus := .failedFault })
      ∧ (s.isAuth x = false ∨ s.streamControl x = false → exec (.hkQueueRead t x) s = .next { a with wstatus := .notPermitted })

/-- Throttle stage 2 after 2 s, and THM_RESUME: refused while hot or when there is no shutdown, and with a value of 0 (the model's
choice, log 43). A resume sets throttle and stage 2 (the model's choice, log 66). -/
def Obligations.ThrottleTimerAndResume : Prop :=
  ∀ (t : Time) (x : Ctx) (s : State),
    let a := s.advance t
    (∀ at_ : Time, s.thm.stage1At = some at_ → s.thm.stage = 1 → s.thm.throttle = true →
      (at_ + 2000000000 ≤ max s.time t → exec (.throttleStage2Timer t) s = .next { a with thm := { s.thm with stage2Due := true } })
      ∧ (max s.time t < at_ + 2000000000 → exec (.throttleStage2Timer t) s = .next a))
    ∧ (exec (.thmResumeWrite t x false) s = .next { a with wstatus := .badParam })
    ∧ (s.thm.shutdown = false → exec (.thmResumeWrite t x true) s = .next { a with wstatus := .badParam })
    ∧ (s.thm.shutdown = true → s.par .thmThrottle ≤ s.thm.gov → exec (.thmResumeWrite t x true) s = .next { a with wstatus := .busy })
    ∧ (s.thm.shutdown = true → s.thm.gov < s.par .thmThrottle → ∃ s', exec (.thmResumeWrite t x true) s = .next s'
        ∧ s'.thm = { s.thm with shutdown := false, resume := true, throttle := true, stage := 2, stage2Due := false }
        ∧ s'.tick.d2 = true ∧ s'.wstatus = .done ∧ s'.tiles = s.tiles ∧ s'.frames = s.frames ∧ s'.mem = s.mem)
/-! Drift tracking and the flysheet (chapter 5). -/

/-- The events of the flysheet: the end of a pulse, a level of FLY_POS from a sample on (accepted once it has stood for 100 samples, 990
µs, with the timestamp of the first), the time limits with their faults, the end of an inhibit window, TMAX, and the compute step. The
opening of an inhibit window changes nothing by itself (the model's choice, log 53). -/
def Obligations.FlysheetEventsAndFaults : Prop :=
  ∀ (t : Time) (u : Tile) (s : State), u.val < s.drift.length →
    let a := s.advance t
    let k := s.dr u
    (k.drive ≠ .off →
      (k.pulseEnd ≤ max s.time t → exec (.flyPulseEnd t u) s = .next (a.modDrift u fun d => { d with drive := .off }))
      ∧ (max s.time t < k.pulseEnd → exec (.flyPulseEnd t u) s = .next a))
    ∧ (∀ (level : Bool) (ts : Time),
        (k.posPin = level → (s.flyEn u = false ∨ k.pos = some level ∨ max s.time t < k.posSince + 990000) →
          exec (.flyPosChange t u level ts) s = .next a)
        ∧ (k.posPin ≠ level → (s.flyEn u = false ∨ (k.pos = some k.posPin ∨ max ts k.posSince ≤ k.posSince + 990000)
            ∧ max s.time t < max ts k.posSince + 990000) →
          exec (.flyPosChange t u level ts) s
            = .next (a.modDrift u fun d => { d with posPin := level, posSince := max ts k.posSince }))
        ∧ ∀ since : Time, ((k.posPin = level ∧ since = k.posSince) ∨ (k.posPin ≠ level ∧ since = max ts k.posSince
              ∧ (since ≤ k.posSince + 990000 ∨ k.pos = some k.posPin))) →
          since + 990000 ≤ max s.time t → s.flyEn u = true → k.pos ≠ some level → level ≠ s.parBit .flyCfg u 1 →
          (k.step = .close → k.cycle ≠ none → since ≤ k.pulseAt + 40000000 → ∃ s', exec (.flyPosChange t u level ts) s = .next s'
            ∧ (s'.dr u).edge = true ∧ (s'.dr u).pos = some level ∧ s'.frames = s.frames ∧ s'.mem = s.mem)
          ∧ (k.cycle = none → k.inFault = false → s.peerCycle u = false → ∃ s', exec (.flyPosChange t u level ts) s = .next s'
            ∧ (s'.dr u).inFault = true ∧ (s'.dr u).cause = 5 ∧ (s'.dr u).step = .fault
            ∧ s'.links.raised = s.links.raised ++ [(.fc, s.links.numFC, 2, u.val, 5)] ∧ s'.mem = s.mem))
    ∧ (k.step = .close → k.edge = false →
        (max s.time t < k.pulseAt + 40990000 → exec (.closeTimeout t u) s = .next a)
        ∧ (k.pulseAt + 40990000 ≤ max s.time t → k.inFault = false → ∃ s', exec (.closeTimeout t u) s = .next s'
          ∧ (s'.dr u).inFault = true ∧ (s'.dr u).cause = 2 ∧ (s'.dr u).step = .fault ∧ (s'.dr u).cycle = none
          ∧ (s.clk.pfw = false → s.thm.shutdown = false → (s'.dr u).drive = .isOpen ∧ (s'.dr u).pulseEnd = max s.time t + s.pulseOf u)
          ∧ (∀ v : Tile, v ≠ u → s'.dr v = s.dr v) ∧ s'.frames = s.frames ∧ s'.mem = s.mem))
    ∧ (k.pulseHeld = none → k.pulseAt + 40990000 ≤ max s.time t →
        (k.step = .opening → k.edge = false → k.inFault = false → ∃ s', exec (.openTimeout t u) s = .next s'
          ∧ (s'.dr u).inFault = true ∧ (s'.dr u).cause = 3 ∧ (s'.dr u).cycle = none ∧ (s'.dr u).drive = k.drive
          ∧ s'.mem = s.mem)
        ∧ (k.step ≠ .opening → k.openWait = true → s.showsOpen u = true →
          exec (.openTimeout t u) s = .next (a.modDrift u fun d => { d with openWait := false })))
    ∧ (exec (.inhibitWindowOpen t u) s = .next a)
    ∧ (∀ (w : Inhibit) (stop : Time), k.inhibit = some w → w.stop = some stop →
        (stop ≤ max s.time t → exec (.inhibitWindowEnd t u) s = .next (a.modDrift u fun d => { d with inhibit := none }))
        ∧ (max s.time t < stop → exec (.inhibitWindowEnd t u) s = .next a))
    ∧ (k.hasRef = true → s.par .flyTmax u ≠ 0 →
        (k.lastRefTime + s.par .flyTmax u * 1000000000 ≤ max s.time t →
          exec (.flyTmaxExpiry t u) s = .next (a.modDrift u fun d => { d with tmaxDue := true }))
        ∧ (max s.time t < k.lastRefTime + s.par .flyTmax u * 1000000000 → exec (.flyTmaxExpiry t u) s = .next a))
    ∧ ∀ c : Cycle, k.step = .compute → k.cycle = some c → c.map = none →
        (c.compute = none → ∃ s', exec (.flysheetComputeDone t u) s = .next s' ∧ (s'.dr u).cycle = none ∧ (s'.dr u).cause = 10
          ∧ (s'.dr u).stale = .untilOpen ∧ (s'.dr u).inFault = k.inFault ∧ s'.mem = s.mem)
        ∧ ∀ b m, c.compute = some (b, m) →
          (c.dscr = false → exec (.flysheetComputeDone t u) s
            = .next (a.modDrift u fun d => { d with cycle := some { c with map := some m, cmNew := b } }))
          ∧ (c.dscr = true → c.discarded = 0 → cellsWf s.mem.cells = true →
            let all := c.candidates (s.par .defDynSigmaLim u) (s.par .defDynOfsLim u)
            let bytes := candidateBytes u c.lastFrame c.used all
            ∃ s', exec (.flysheetComputeDone t u) s = .next s' ∧ (s'.dr u).candCnt = min 4096 all.length
              ∧ (s'.dr u).cands = (all.take 4096).map (·.1) ∧ s'.readMem (candAddr u) bytes.length = bytes
              ∧ ∀ n : Nat, n < candAddr u ∨ candAddr u + bytes.length ≤ n →
                cellByte s'.mem.cells n = cellByte s.mem.cells n)

/-- FLY_CYCLE asks for a cycle of each named tile, with or without FORCE, or clears its fault as the command starts (the model's choice,
log 52); these clauses are for tiles that this device owns. FLY_INHIBIT sets the windows of all named tiles, those of the peer too (the
model's reading, log 123). The commands reach the F-die over the guyline (R282). DRIFT_STATUS answers a record for each named tile. -/
def Obligations.FlysheetCommands : Prop :=
  ∀ (t : Time) (x : Ctx) (tag : BitVec 11) (s : State) (c : Cmd), s.drift.length = 8 →
    let a := s.advance t
    let mask := leAt c.payload 0 1
    let len := leAt c.payload 6 2
    let start := max s.time t + leAt c.payload 4 2 * 1000000000
    let stop : Option Time := if len = 0xFFFF then none else some (start + len * 1000000000)
    let window : Option Inhibit := if len = 0 then none else some { start := start, stop := stop, raised := false }
    (a.starting x tag.toNat 0x4001 = some c → c.payload.length = 4 → leAt c.payload 2 2 = 0 →
      (leAt c.payload 1 1 < 4 → (∃ u ∈ tilesIn mask, s.flyEn u = false ∨ s.tileOn u = false) →
        exec (.flyCycle t x tag) s = .next (a.complete x c .badParam))
      ∧ (s.peerTiles mask = 0 → (∀ u ∈ tilesIn mask, s.flyEn u = true ∧ s.tileOn u = true ∧ (s.dr u).inhibit = none) →
        (s.fdieUp = false → leAt c.payload 1 1 < 4 → mask ≠ 0 →
          exec (.flyCycle t x tag) s = .next (a.complete x c .failedFault))
        ∧ (s.fdieUp = true → leAt c.payload 1 1 = 2 →
          exec (.flyCycle t x tag) s = .next (((tilesIn mask).foldl State.clearFault a).complete x c .done))
        ∧ (s.fdieUp = true → leAt c.payload 1 1 < 2 → (leAt c.payload 1 1 = 1 → s.isPartner = false) → mask ≠ 0 →
          (∀ u ∈ tilesIn mask, (s.dr u).inFault = false) →
          ∃ s', exec (.flyCycle t x tag) s = .next s'
            ∧ s' = ((tilesIn mask).foldl (fun s u => s.requestCycle (leAt c.payload 1 1 == 1) u) a).await x c (.fly mask 0 0 0 0)
            ∧ ∀ u : Tile, (bitOf mask u.val = true → (s.dr u).cycle = none → (s'.dr u).reasons.getLsbD 4 = true
                ∧ (s'.dr u).force = ((s.dr u).force || leAt c.payload 1 1 == 1))
              ∧ (bitOf mask u.val = false → s'.dr u = s.dr u))))
    ∧ (a.starting x tag.toNat 0x4002 = some c → c.payload.length = 8 → leAt c.payload 1 3 = 0 → s.fdieUp = true →
        ∃ s', exec (.flyInhibit t x tag) s = .next s' ∧ s'.mem = s.mem ∧ s'.frames = s.frames
          ∧ ∀ u : Tile, (bitOf mask u.val = false → s'.dr u = s.dr u)
            ∧ (bitOf mask u.val = true → s'.dr u = { s.dr u with inhibit := window }))
    ∧ ∀ sg : Nat, a.starting x tag.toNat 0x4003 = some c →
        (c.payload = [] → exec (.driftStatus t x tag sg) s = .next (a.complete x c .badParam))
        ∧ (c.payload ≠ [] → c.sgAddr ≠ 0 → s.sgInDevice x = false → (s.ctx x).busOff = false → 32 * (tilesIn mask).length ≤ sg →
          exec (.driftStatus t x tag sg) s = .next (({ a with out := s.out
            ++ [.scatter x c.tag ((tilesIn mask).flatMap a.driftRecord)] } : State).complete x c .done (tilesIn mask).length))

/-! Calibration import and activation (chapter 6), failed tags (R304). -/

/-- BEGIN opens one session for its sender, CHUNK takes the next chunk if it opens, END refuses an import that is not whole, or whose
digest is another, or cancels it on request, and CAL_STATUS reads the identity page, which crosses the guyline (R43), and writes its
record. Every command of the import restarts the session's time, a refused one too, and the time idles while an activation is under way
(the model's reading, log 68). A LEAD sends each part with a kind code of the model's (log 107). An identity page that nothing has written
reads as zeros (log 5). -/
def Obligations.CalibrationImportSession : Prop :=
  ∀ (t : Time) (x : Ctx) (tag : BitVec 11) (s : State) (c : Cmd),
    let a := s.advance t
    (a.starting x tag.toNat 0x3001 = some c → s.importsHere = true → s.session = none → s.act = .none →
      let e := if s.nvUp then a.nvFetchAll [8] else a
      let b := if hdrShapeOk c.payload then e.verified 1 else e
      exec (.calImportBegin t x tag) s = .next (match b.hdrRefusal devId c.payload with
        | some st => b.complete x c st
        | none => ({ (b.clearMem (calAreaAddr b.freeArea) calAreaBytes).sendBundle (0 :: c.payload) with
            session := some (newSession x c.payload (max s.time t)) } : State).complete x c .done (hdrChunks c.payload)))
    ∧ (∀ k : Session, s.session = some k → k.owner = x → s.importsHere = true →
        (∀ area : Bytes, a.starting x tag.toNat 0x3002 = some c → c.payload = [] → c.sgAddr ≠ 0 → s.sgInDevice x = false →
          let n := leAt area 4 4
          let b : State := { a with session := some { k with touched := max s.time t } }
          (leAt area 0 4 ≠ k.next → exec (.calImportChunk t x tag area) s = .next (b.complete x c .badParam))
            ∧ (area.length = 8 + n → k.next < hdrChunks k.hdr → leAt area 0 4 = k.next → n = chunkLen k.hdr k.next + 16 →
              exec (.calImportChunk t x tag area) s = .next (
                match Config.gcmOpen (calKek k.hdr) (sliceB 48 8 k.hdr ++ beBytes 4 k.next) (k.hdr.take 416)
                    (sliceB 8 (n - 16) area) (sliceB (n - 8) 16 area) with
                | none => (b.bump .calChunkFailCnt).complete x c .authFail
                | some p =>
                  match ({ k with touched := max s.time t } : Session).add (padTo (n - 16) p) (calAreaAddr s.freeArea) with
                  | none => (b.complete x c .badParam).cancelSession 5
                  | some k2 => (({ (k2.secs.getD []).foldl (fun s e => s.placePart k.plain.length (padTo (n - 16) p) e) b with
                      session := some k2 } : State).sendBundle (1 :: padTo (n - 16) p)).complete x c .done k2.next)))
        ∧ (a.starting x tag.toNat 0x3003 = some c →
          let b : State := { a with session := some { k with touched := max s.time t } }
          (s.act ≠ .none → exec (.calImportEnd t x tag) s = .next (b.complete x c .busy))
          ∧ (s.act = .none → c.payload = [1, 0, 0, 0] → exec (.calImportEnd t x tag) s = .next ((b.complete x c .done).cancelSession 4))
          ∧ (s.act = .none → c.payload = [0, 0, 0, 0] →
            (k.next < hdrChunks k.hdr → exec (.calImportEnd t x tag) s = .next (b.complete x c .badParam))
            ∧ (hdrChunks k.hdr ≤ k.next → sha k.plain ≠ hdrDigest k.hdr →
              exec (.calImportEnd t x tag) s = .next ((b.complete x c .authFail).cancelSession 6)))))
    ∧ (∀ k : Session, s.session = some k → s.act = .none → k.touched + s.par .calImportTmo * 1000000000 ≤ max s.time t →
        exec (.calImportTmoExpiry t) s = .next (a.cancelSession 1) ∧ (a.cancelSession 1).session = none)
    ∧ (∀ k : Session, s.session = some k → s.act ≠ .none ∨ max s.time t < k.touched + s.par .calImportTmo * 1000000000 →
        exec (.calImportTmoExpiry t) s = .next a)
    ∧ (∀ sg : Nat, a.starting x tag.toNat 0x3004 = some c → c.payload = [] → s.nvMap 8 = none → s.nvUp = true →
      (s.ctx x).busOff = false → c.sgAddr ≠ 0 →
        s.sgInDevice x = false → 64 ≤ sg → exec (.calStatus t x tag sg) s
          = .next (let b := a.sendAcross .fc (.nvData 8 0 zeroPage)
            ({ b with out := b.out ++ [.scatter x c.tag (s.calRecord zeroPage)] } : State).complete x c .done 64))

/-- A verified bundle is activated at a tick of the device's own or after 100 ms, and the copy ends the wait; the frame that is open then
ends first, under the old bundle (R117). A block of external memory that fails its tag leaves the good ones alone: of the CAL region its
pixels join the frame's defect set and the failure is counted (R197), of the drift map it reads as zero records in the frame, and in
memory too if the second read fails, of drift scratch a cycle aborts, and of SEC the device is left in the basecamp image. Two places are
the model's choice, not R304's: scratch area k serves the k-th running cycle in tile order, so that cycle is the one that aborts (log 16),
and the addresses of the regions and their items (log 10). -/
def Obligations.ActivationAndFailedTags : Prop :=
  ∀ (t : Time) (s : State),
    let a := s.advance t
    (∀ since : Time, s.act = .waiting since → s.ownTicks = true → s.tick.running = true → s.tick.next ≤ max s.time t →
        s.tick.state = .freeRun ∨ (s.tick.state = .internal ∧ (s.tick.d2 && s.tick.skip) = false) → max s.time t < since + 100000000 →
      ∃ s', exec (.activationStart t) s = .next s' ∧ s'.act = .holding (max s.time t) false 0 ∧ s'.nv = s.nv
        ∧ (s.reading = none → s'.mem = s.mem ∧ s'.frames = s.frames))
    ∧ (∀ since : Time, s.act = .waiting since → since + 100000000 ≤ max s.time t →
        ∃ s', exec (.activationStart t) s = .next s' ∧ s'.act = .copying ∧ s'.mem = s.mem ∧ s'.nv = s.nv ∧ s'.frames = s.frames)
    ∧ (∀ (since : Time) (n : Nat), s.act = .holding since false n → exec (.activationCopyDone t true) s
        = .next { a with act := .holding since true n })
    ∧ (∀ k : Session, s.act = .copying → s.session = some k → ∃ s', exec (.activationCopyDone t true) s = .next s'
        ∧ s'.bundle = some (a.endReading.bundleOf k) ∧ s'.session = none ∧ s'.act = .none)
    ∧ (∀ (since : Time) (n : Nat) (k : Session), s.act = .holding since true n → s.session = some k → since + 4000000 ≤ max s.time t →
        s.ownTicks = true → s.tick.running = true → s.tick.next ≤ max s.time t →
        s.tick.state = .freeRun ∨ (s.tick.state = .internal
          ∧ (s.tick.d2 && s.tick.skip) = false) → ∃ s', exec (.activationHoldEnd t) s = .next s'
          ∧ s'.bundle = some (a.endReading.bundleOf k) ∧ s'.session = none ∧ s'.act = .none)
    ∧ (∀ (addr : Nat) (ok : Bool), s.boot = .running → addr < 64 * mib → ∃ s', exec (.memoryTagFail t addr ok) s = .next s'
        ∧ s'.boot = .basecamp ∧ s'.frames = [] ∧ ∀ x : Ctx, (s'.ctx x).mv.started = false)
    ∧ (∀ (addr : Nat) (ok : Bool), s.boot = .running → 64 * mib ≤ addr → addr < 0x0C000000 → cellsWf s.mem.cells = true →
        ∃ s', exec (.memoryTagFail t addr ok) s = .next s' ∧ s'.boot = .running
          ∧ (∀ n : Nat, cellByte s'.mem.cells n
              = if ok = false ∧ addr / 512 * 512 ≤ n ∧ n < addr / 512 * 512 + 512 then 0 else cellByte s.mem.cells n)
          ∧ (s.reading = none → s'.frames = s.frames)
          ∧ ∀ f : Frame, s.reading = some f → s'.frames = s.frames.map fun g => if g.num = f.num then
              { g with tiles := g.tiles.modify (s.driftBlock addr).1 fun k => { k with badDpr := k.badDpr ++ [(s.driftBlock addr).2] } }
            else g)
    ∧ (∀ (addr : Nat) (ok : Bool) (u : Tile), s.boot = .running → 0x0C000000 ≤ addr → addr < 0x14000000 → s.drift.length = 8 →
        (allTiles.filter fun t => (s.dr t).cycle.isSome)[(addr - 0x0C000000) / (64 * mib)]? = some u →
        ∃ s', exec (.memoryTagFail t addr ok) s = .next s' ∧ (s'.dr u).cycle = none ∧ (s'.dr u).cause = 10
          ∧ (∀ v : Tile, v ≠ u → s'.dr v = s.dr v) ∧ s'.boot = .running ∧ s'.mem = s.mem ∧ s'.frames = s.frames)
    ∧ ∀ (addr : Nat) (ok : Bool) (b : Bundle) (e : Nat × Nat × Nat), s.boot = .running → 0x60000000 ≤ addr → addr < 0x1E0000000 →
        s.bundle = some b → regsWf s.regs = true →
        (b.cpr.find? fun e => e.2.2 ≤ addr && addr < e.2.2 + cprPitch (hdrCols b.hdr e.1) * hdrRows b.hdr e.1 * 8) = some e →
        let i := (addr - e.2.2) / 512 * 64
        let pitch := cprPitch (hdrCols b.hdr e.1)
        ∃ s', exec (.memoryTagFail t addr ok) s = .next s' ∧ s'.mem = s.mem ∧ s'.bundle = s.bundle ∧ s'.boot = .running
          ∧ s'.par .calTagFailCnt = satAdd (2 ^ Param.calTagFailCnt.row.width - 1) (s.par .calTagFailCnt) 1
          ∧ s'.par .calRereadFailCnt = (if ok then s.par .calRereadFailCnt
              else satAdd (2 ^ Param.calRereadFailCnt.row.width - 1) (s.par .calRereadFailCnt) 1)
          ∧ (s.reading = none → s'.frames = s.frames)
          ∧ ∀ f : Frame, s.reading = some f → s'.frames = s.frames.map fun g => if g.num = f.num then
              { g with tiles := g.tiles.modify e.1 fun k => { k with badCpr := k.badCpr ++ [(i / pitch, i % pitch)] } } else g
/-! The auxiliary path, replay and capture (chapter 8). -/

/-- AUX_SUBMIT queues a frame, the oldest submission is processed and its output becomes the camera's newest. REPLAY_CTL starts and
stops a replay or a capture, and starts no replay during a thermal shutdown (the model's reading of R365, log 109); a replay frame
writes its result, header and data, at its place and no other byte, and moves nothing of the live state but the counter units and
the sampler, which its nodes pass too. -/
def Obligations.AuxiliaryReplayAndCapture : Prop :=
  ∀ (t : Time) (x : Ctx) (s : State),
    let a := s.advance t
    let src := 256 * s.par .replaySrc
    let dst := 256 * s.par .replayDst
    (∀ (cam : Fin 4) (v : Word), s.streamControl x = true → Param.inRange false .auxSubmit cam v.toNat = true →
      s.parBit .auxCamCfg cam 8 = true →
      (s.thm.stage = 0 → s.thm.shutdown = false → s.auxSlotState cam (v.toNat % 2) = 0 → exec (.auxSubmitWrite t x cam v) s = .next { a with
        aux := { s.aux with queue := s.aux.queue
          ++ [{ cam := cam.val, slot := v.toNat % 2, seq := v.toNat / 65536, subAt := max s.time t }] }, wstatus := .done })
      ∧ (s.thm.stage ≠ 0 ∨ s.thm.shutdown = true ∨ s.auxSlotState cam (v.toNat % 2) ≠ 0 →
        exec (.auxSubmitWrite t x cam v) s = .next { a with wstatus := .busy }))
    ∧ (∀ (j : AuxJob) (r : List AuxJob), s.aux.queue = j :: r → s.aux.job = none → s.aux.capture = none →
        (s.thm.stage = 0 → s.thm.shutdown = false → ∃ s', exec (.auxProcessStart t) s = .next s' ∧ s'.aux.queue = r
          ∧ s'.aux.cams = s.aux.cams
          ∧ (∃ cfg, s'.aux.job = some (j, s.auxOutSlot j.cam, s.readMem (auxTableAddr j.cam) 32768, cfg)) ∧ s'.mem = s.mem
          ∧ s'.frames = s.frames)
        ∧ (s.thm.stage ≠ 0 ∨ s.thm.shutdown = true → exec (.auxProcessStart t) s = .next a))
    ∧ (∀ (j : AuxJob) (slot : Nat) (table : Bytes) (cfg : List Nat), s.aux.job = some (j, slot, table, cfg) →
        let img := (auxInput cfg table (s.readMem (auxInAddr j.cam j.slot) (6 * mib))).output
        cellsWf s.mem.cells = true → ∃ s', exec (.auxFrameDone t) s = .next s' ∧ s'.aux.job = none ∧ s'.aux.queue = s.aux.queue
          ∧ (j.cam < s.aux.cams.length →
            s'.auxCam j.cam = { newest := slot, valid := true, seq := j.seq, subAt := j.subAt })
          ∧ s'.readMem (auxOutAddr j.cam slot) img.length = img ∧ s'.frames = s.frames
          ∧ ∀ n : Nat, n < auxOutAddr j.cam slot ∨ auxOutAddr j.cam slot + img.length ≤ n →
            cellByte s'.mem.cells n = cellByte s.mem.cells n)
    ∧ (s.streamControl x = true →
        (s.aux.op = 0 → dst + s.replayCount * s.captureBytes ≤ s.replaySize → exec (.captureStart t x) s = .next { a with
          aux := { s.aux with
            op := 2, done := 0, cause := 0, stopReq := false, busySince := none, capture := none, src := src, dst := dst }
          wstatus := .done })
        ∧ (s.aux.op = 0 → s.replaySize < dst + s.replayCount * s.captureBytes →
          exec (.captureStart t x) s = .next { a with wstatus := .badParam })
        ∧ (s.aux.op = 0 → s.headerOk src = true → src + s.replayCount * s.sourceBytes ≤ s.replaySize →
          dst + s.replayCount * s.resultBytes ≤ s.replaySize →
          (s.thm.shutdown = false → s.anyStream = false ∨ replayBudget ≤ s.pBudget → exec (.replayStart t x) s = .next { a with
            aux := { s.aux with
              op := 1, done := 0, cause := 0, stopReq := false, busySince := none, capture := none, src := src, dst := dst }
            wstatus := .done })
          ∧ (s.thm.shutdown = true ∨ (s.anyStream = true
            ∧ s.pBudget < replayBudget) → exec (.replayStart t x) s = .next { a with wstatus := .busy }))
        ∧ (s.aux.op ≠ 0 → exec (.replayStart t x) s = .next { a with wstatus := .busy }
          ∧ exec (.captureStart t x) s = .next { a with wstatus := .busy })
        ∧ (s.aux.op ≠ 0 → s.aux.busySince = none → s.aux.capture = none → ∃ s', exec (.replayStop t x) s = .next s'
          ∧ s'.aux = { s.aux with op := 0, cause := 1, stopReq := false } ∧ s'.mem = s.mem ∧ s'.wstatus = .done)
        ∧ (s.aux.op ≠ 0 → s.aux.busySince ≠ none ∨ s.aux.capture ≠ none →
          exec (.replayStop t x) s = .next { a with aux := { s.aux with stopReq := true }, wstatus := .done }))
    ∧ (s.thm.shutdown = true → exec (.replayFrameStart t) s = .next a)
    ∧ (s.aux.op = 1 → s.aux.busySince = none → s.thm.shutdown = false →
        let entered := a.enterReplay.aux = { s.aux with busySince := some (max s.time t) } ∧ a.enterReplay.mem = s.mem
          ∧ a.enterReplay.frames = s.frames ∧ a.enterReplay.drift = s.drift
        (s.headerOk s.aux.src = false → ∃ s', exec (.replayFrameStart t) s = .next s' ∧ s'.aux.op = 0 ∧ s'.aux.cause = 2
          ∧ s'.mem = s.mem)
        ∧ (s.headerOk s.aux.src = true → s.anyStream = false →
          exec (.replayFrameStart t) s = .next a.enterReplay ∧ entered)
        ∧ (∀ ts : Time, s.headerOk s.aux.src = true → s.reading = none → replayBudget ≤ s.pBudget → s.tick.last = some ts →
          max s.time t + s.replayTime ≤ s.cutOf ts →
          exec (.replayFrameStart t) s = .next a.enterReplay ∧ entered)
        ∧ (s.headerOk s.aux.src = true → s.anyStream = true → s.reading ≠ none → exec (.replayFrameStart t) s = .next a))
    ∧ ∀ since : Time, s.aux.op = 1 → s.aux.busySince = some since →
        (max s.time t < since + s.replayTime → exec (.replayFrameDone t) s = .next a)
        ∧ (since + s.replayTime ≤ max s.time t → cellsWf s.mem.cells = true →
          let head := s.readMem (replayAddr + s.aux.src) 64
          let place := replayAddr + s.aux.dst
          let result := (a.nodesTo (max s.time t)).replayResult.2
          ∃ s', exec (.replayFrameDone t) s = .next s'
          ∧ s'.aux.done = s.aux.done + 1 ∧ s'.aux.busySince = none ∧ s'.drift = s.drift
          ∧ s'.frames = s.frames
          ∧ s'.tiles = s.tiles ∧ s'.tick = s.tick ∧ s'.history = s.history ∧ s'.held = s.held ∧ s'.outs = s.outs ∧ s'.hk = s.hk
          ∧ result.length = s.resultBytes ∧ result.take 8 = sliceB 6 6 head ++ leBytes 1 s.replayTap ++ [0]
          ∧ s'.readMem place s.resultBytes = result
          ∧ ∀ n : Nat, n < place ∨ place + s.resultBytes ≤ n → cellByte s'.mem.cells n = cellByte s.mem.cells n)

/-! The host protocol (chapter 9). -/

/-- A command that fails check 1, 2, 3 or 4 is answered at once with EARLY = 1: no tag, no generation, nothing in flight. -/
def Obligations.EarlyRefusalsTakeNoTag : Prop :=
  ∀ (s : State) (x : Ctx) (h : Header) (payload : Bytes) (st : Status),
    s.onPcie x = true → (s.ctx x).ringsOn = true → s.forwards x h.opcode = false → s.parField .sampleCfg 0 1 0 ≠ 2 →
    (st = .badParam ∧ h.legal x = false
      ∨ h.legal x = true ∧ (st = .notPermitted ∧ s.ownsTag x (h.tag % 2048) = false
        ∨ s.ownsTag x (h.tag % 2048) = true ∧ (st = .staleGeneration ∧ h.tag / 2048 ≠ s.genOf (h.tag % 2048)
          ∨ h.tag / 2048 = s.genOf (h.tag % 2048) ∧ st = .busy ∧ ∃ c ∈ (s.ctx x).inflight, c.tag % 2048 = h.tag % 2048))) →
    let s' := s.fetchCommand x h payload
    s'.gens = s.gens ∧ s'.fetches = s.fetches ∧ (s'.ctx x).inflight = (s.ctx x).inflight
      ∧ (s'.ctx x).replies = (s.ctx x).replies ++
        [{ tag := h.tag, status := st, early := true, result := 0, time := s.time, phase := (s.ctx x).cq.phase }]

/-- A command that took its tag ends with one reply, its tag leaves the flight and the tag's live generation moves on by one. -/
def Obligations.FinishRepliesAndFreesTheTag : Prop :=
  ∀ (s : State) (x : Ctx) (c : Cmd) (st : Status) (r : Nat),
    s.onPcie x = true → (s.ctx x).ringsOn = true → keysRise none s.gens = true →
    let s' := s.finish x c st r
    (s'.ctx x).replies = (s.ctx x).replies ++
        [{ tag := c.tag, status := st, early := false, result := r % 2 ^ 32, time := s.time, phase := (s.ctx x).cq.phase }]
      ∧ (s'.ctx x).inflight = (s.ctx x).inflight.filter (fun d => d.tag % 2048 != c.tag % 2048)
      ∧ s'.genOf (c.tag % 2048) = (s.genOf (c.tag % 2048) + 1) % 32
      ∧ (∀ n : Nat, n ≠ c.tag % 2048 → s'.genOf n = s.genOf n)
      ∧ (∀ y : Ctx, y ≠ x → s'.ctx y = s.ctx y)
      ∧ s'.mem = s.mem ∧ s'.frames = s.frames ∧ s'.nv = s.nv ∧ s'.sec = s.sec ∧ s'.fetches = s.fetches

/-- The doorbells: an index past its ring is an error with cause 2; a submission doorbell hands over the slots, a completion or event
doorbell frees entries. That a head doorbell that repeats the old index on a full ring frees every entry (freedBy) is the model's
reading (log 27, DEDUCED). -/
def Obligations.DoorbellsMoveTheRings : Prop :=
  ∀ (t : Time) (x : Ctx) (n : Nat) (slots : Bytes) (s : State),
    s.barUp x = true → (s.ctx x).ringsOn = true → (s.ctx x).fetchStop = false →
    let a := (s.advance t).perfEvent 12 0x13
    let k := s.ctx x
    (k.sq.size ≤ n → exec (.sqTailDoorbell t x n slots) s = .next (a.ringError x 2))
      ∧ (k.cq.size ≤ n → exec (.cqHeadDoorbell t x n) s = .next (a.ringError x 2))
      ∧ (k.eq.size ≤ n → exec (.eqHeadDoorbell t x n) s = .next (a.ringError x 2))
      ∧ (n < k.sq.size → exec (.sqTailDoorbell t x n slots) s = .next ((a.modCtx x fun j =>
          { j with sq := { j.sq with tail := n }, sqSlots := j.sqSlots ++ padTo (32 * ringSpan k.sq.size k.sq.tail n) slots }).fetchRing
            x))
      ∧ (n < k.cq.size → exec (.cqHeadDoorbell t x n) s = .next ((a.modCtx x fun j =>
          { j with cq := { j.cq with head := n }, replies := j.replies.drop (freedBy k.cq n k.replies.length) }).fetchRing x))
      ∧ (n < k.eq.size → exec (.eqHeadDoorbell t x n) s = .next ((a.modCtx x fun j =>
          { j with eq := { j.eq with head := n }, events := j.events.drop (freedBy k.eq n k.events.length) }).flushLost x))

/-- RING_CTL: an enable starts the rings afresh, a disable waits for no command; a DMA error has cause 3. -/
def Obligations.RingControl : Prop :=
  ∀ (t : Time) (x : Ctx) (s : State), s.barUp x = true → x.val < s.ctxs.length →
    ((s.ctx x).ringsOn = false ∨ (s.ctx x).fetchStop = true → (s.ctx x).ringsOk = true → ∃ s', exec (.ringEnable t x) s = .next s'
        ∧ (s'.ctx x).ringsOn = true ∧ (s'.ctx x).ringErr = 0 ∧ (s'.ctx x).fetchStop = false ∧ (s'.ctx x).replies = []
          ∧ (s'.ctx x).sqSlots = []
        ∧ (s'.ctx x).sq.head = 0 ∧ (s'.ctx x).sq.tail = 0 ∧ (s'.ctx x).cq.head = 0 ∧ (s'.ctx x).eq.head = 0
        ∧ (s'.ctx x).heldReset = none ∧ ((s.ctx x).heldReset = none → (s'.ctx x).events = []) ∧ s'.gens = s.gens)
    ∧ ((s.ctx x).ringsOn = false → (s.ctx x).ringsOk = false → exec (.ringEnable t x) s = .next ((s.advance t).ringError x 1))
    ∧ ((s.ctx x).inflight = [] → exec (.ringDisable t x) s
        = .next ((s.advance t).modCtx x fun k => { k with ringsOn := false, sqSlots := [] }))
    ∧ ((s.ctx x).inflight ≠ [] → exec (.ringDisable t x) s = .next ((s.advance t).ringError x 4))
    ∧ ((s.ctx x).ringsOn = true → exec (.ringDmaError t x) s = .next ((s.advance t).ringError x 3))

/-- A plain BAR register keeps what is written, a status register clears what is written 1; a vector held back is raised when its
holdoff ends. DP_DATA acts at DP_ADDR and moves it on by 4, the burst window leaves it; a refused read answers all ones and a refused
write stores nothing (R293). An address that is not a multiple of 4 is refused as well (the model's reading, log 79). -/
def Obligations.BarRegistersAndDataPort : Prop :=
  (∀ (t : Time) (x : Ctx) (v : BitVec 64) (s : State),
     (s.barUp x = true →
       exec (.barRegisterWrite t x .irqStatus v) s
         = .next ((s.advance t).modCtx x fun k => { k with irqStatus := k.irqStatus &&& ~~~ BitVec.ofNat 3 v.toNat })
       ∧ exec (.barRegisterWrite t x .dpAddr v) s = .next ((s.advance t).modCtx x fun k => { k with dpAddr := v.toNat })
       ∧ (∀ r : BarReg, (s.ctx x).ringsOn = true → r ≠ .irqStatus → r ≠ .irqMask → r ≠ .dpAddr → r ≠ .dpStatus →
           ∃ s', exec (.barRegisterWrite t x r v) s = .next s' ∧ s'.ctx x = s.ctx x)
       ∧ (x.val < s.ctxs.length → (s.ctx x).ringsOn = false → ∃ s', exec (.barRegisterWrite t x .sqBase v) s = .next s'
           ∧ (s'.ctx x).sq.base = v.toNat ∧ (s'.ctx x).cq = (s.ctx x).cq))
     ∧ ∀ vec : Fin 2, x.val < s.ctxs.length →
         let bit : BitVec 2 := BitVec.ofNat 2 (2 ^ vec.val)
         let due := (s.ctx x).irqAt.getD vec.val 0 + s.par .hostIrqMod x * 1000
         ((s.ctx x).irqHold &&& bit = 0 ∨ max s.time t < due → exec (.irqHoldoffExpiry t x vec) s = .next (s.advance t))
           ∧ ((s.ctx x).irqHold &&& bit ≠ 0 → due ≤ max s.time t → ∃ s', exec (.irqHoldoffExpiry t x vec) s = .next s'
             ∧ (s'.ctx x).irqBack = (s.ctx x).irqBack &&& ~~~ bit
             ∧ ((s.ctx x).irqBack &&& bit = 0 → (s'.ctx x).irqHold = (s.ctx x).irqHold &&& ~~~ bit
               ∧ (s'.ctx x).irqStatus = (s.ctx x).irqStatus)
             ∧ ((s.ctx x).irqBack &&& bit ≠ 0 → (s'.ctx x).irqStatus = (s.ctx x).irqStatus ||| BitVec.ofNat 3 (2 ^ vec.val))))
    ∧ (∀ (t : Time) (x : Ctx) (w : Word) (off : Nat) (s : State), s.barUp x = true →
          let a := s.advance t
          let p := (s.ctx x).dpAddr
          let q := p + off % 4096
          let next (u : State) : State := u.modCtx x fun k => { k with dpAddr := (k.dpAddr + 4) % 2 ^ 64 }
          (s.dpWriteStop x p 4 = none →
            exec (.dpDataAccess t x (.write w)) s = .next (next ((a.countAccess p 4 true).writeMem p (leBytes 4 w.toNat))))
            ∧ (s.dpReadStop x p 4 = none → exec (.dpDataAccess t x .read) s
                = .next (next { a.countAccess p 4 false with out := s.out ++ [.busRead x (BitVec.ofNat 32 (leNat (s.deviceBytes p 4)))] }))
            ∧ (∀ st, s.dpWriteStop x p 4 = some st → exec (.dpDataAccess t x (.write w)) s = .next (next (a.dpRefuse x st)))
            ∧ (∀ st, s.dpReadStop x p 4 = some st → ∃ s', exec (.dpDataAccess t x .read) s = .next s'
                ∧ s'.out = s.out ++ [.busRead x 0xFFFFFFFF] ∧ s'.mem = s.mem)
            ∧ (s.dpWriteStop x q 4 = none → exec (.dpBurstAccess t x off (.write w)) s
                = .next ((a.countAccess q 4 true).writeMem q (leBytes 4 w.toNat)))
            ∧ (s.dpReadStop x q 4 = none → exec (.dpBurstAccess t x off .read) s
                = .next { a.countAccess q 4 false with out := s.out ++ [.busRead x (BitVec.ofNat 32 (leNat (s.deviceBytes q 4)))] }))


/-- Frames on a peg port: a command frame is fetched, a write frame stores its bytes, a read frame is answered, and with bytes of all
ones where the read is refused (R293); a frame of a wrong length is counted. -/
def Obligations.PegFramesReachTheirContext : Prop :=
  ∀ (t : Time) (n : Fin 2) (x : Ctx) (s : State), s.pegContext n.val = some x → s.fdieUp = true →
    (∀ frame : Bytes, s.hostUp = true → frame.head? = some 0xC0 →
      (frame.length = 33 + (parseHeader (frame.drop 1)).inlineLen → exec (.pegCommandFrame t n frame) s
        = .next (((s.advance t).takeFrame n.val frame).fetchCommand x (parseHeader (frame.drop 1)) (frame.drop 33)))
      ∧ (frame.length ≠ 33 + (parseHeader (frame.drop 1)).inlineLen → exec (.pegCommandFrame t n frame) s
        = .next (((s.advance t).takeFrame n.val frame).bump .hostRejectCnt x)))
    ∧ (∀ (addr : Nat) (data : Bytes), pegCountOk data.length = true → s.dpWriteStop x addr data.length = none → ∃ s',
        exec (.pegDataWriteFrame t n addr data) s = .next s' ∧ s'.mem.cells = putCells s.mem.cells addr data
          ∧ s'.regs = s.regs ∧ s'.ctxs = s.ctxs ∧ s'.frames = s.frames)
    ∧ (∀ addr count : Nat, pegCountOk count = true →
        (s.dpReadStop x addr count = none → ∃ s', exec (.pegDataReadFrame t n addr count) s = .next s'
          ∧ (n.val < s.pegs.length → (s'.peg n.val).txFrames = (s.peg n.val).txFrames ++ [0xD2 :: s.deviceBytes addr count])
          ∧ s'.mem = s.mem ∧ s'.ctxs = s.ctxs)
        ∧ (∀ st, s.dpReadStop x addr count = some st → ∃ s', exec (.pegDataReadFrame t n addr count) s = .next s'
          ∧ (n.val < s.pegs.length →
            (s'.peg n.val).txFrames = (s.peg n.val).txFrames ++ [0xD2 :: List.replicate count 0xFF]) ∧ s'.mem = s.mem))

/-- DATA_READ and DATA_WRITE move at most 4 KiB a row of the command and then wait for the next (the model's choice of steps, log 111):
the command completes with its count once its range is through, a range that is closed is refused whole, and every byte of memory outside
the transfer keeps its value. -/
def Obligations.DataCommandsCopyTheirRange : Prop :=
  ∀ (t : Time) (x : Ctx) (tag : BitVec 11) (s : State) (c : Cmd),
    let a := s.advance t
    let p := leAt c.payload 0 8
    let n := leAt c.payload 8 4
    let after (u : State) (k : Nat) : State := if k < n then u.await x c (.moving k) else u.complete x c .done n
    let read (k : Nat) : State :=
      let m := min 4096 (n - k)
      after { a.countAccess (p + k) m false with out := s.out ++ [.scatter x c.tag (s.deviceBytes (p + k) m)] } (k + m)
    let write (k : Nat) (data : Bytes) : State :=
      let m := min 4096 (n - k)
      after ((a.countAccess (p + k) m true).writeMem (p + k) (sliceB k m data)) (k + m)
    (c.sgAddr ≠ 0 → s.sgInDevice x = false → (s.ctx x).busOff = false →
      (a.starting x tag.toNat 0x5001 = some c → c.payload.length = 12 → dataRangeOk p n = true → s.readRefusal x p n = none →
        exec (.dataRead t x tag n) s = .next (read 0))
      ∧ (∀ k : Nat, a.midTransfer x tag 0x5001 = some (c, k) → exec (.dataRead t x tag n) s = .next (read k)))
    ∧ (∀ st, a.starting x tag.toNat 0x5001 = some c → c.payload.length = 12 → dataRangeOk p n = true → s.sgLength x c n = n →
        s.readRefusal x p n = some st → exec (.dataRead t x tag n) s = .next (a.complete x c st))
    ∧ (a.starting x tag.toNat 0x5002 = some c → c.payload.length = 12 + n → dataRangeOk p n = true →
        (s.writeRefusal x p n = none → exec (.dataWrite t x tag []) s = .next (write 0 (c.payload.drop 12)))
        ∧ ∀ st, s.writeRefusal x p n = some st → exec (.dataWrite t x tag []) s = .next (a.complete x c st))
    ∧ (∀ area : Bytes, c.payload.length = 12 → c.sgAddr ≠ 0 → s.sgInDevice x = false → area.length = n →
        (a.starting x tag.toNat 0x5002 = some c → dataRangeOk p n = true → s.writeRefusal x p n = none →
          exec (.dataWrite t x tag area) s = .next (write 0 area))
        ∧ ∀ k : Nat, n ≠ 0 → a.midTransfer x tag 0x5002 = some (c, k) → exec (.dataWrite t x tag area) s = .next (write k area))
    ∧ ∀ (k : Nat) (data : Bytes), cellsWf s.mem.cells = true →
        let m := min 4096 (n - k)
        (write k data).readMem (p + k) m = sliceB k m data
          ∧ ∀ b : Nat, b < p + k ∨ p + k + m ≤ b → cellByte (write k data).mem.cells b = cellByte s.mem.cells b

/-- NOP, GET_INFO, GET_RECOVERY and EVENT_ARM. GET_RECOVERY needs the guyline, behind which its page lies (the model's reading of R282,
log 65): it asks for the page, and the page's data come back (R43; the messages are the model's, log 107). -/
def Obligations.InfoCommands : Prop :=
  ∀ (t : Time) (x : Ctx) (tag : BitVec 11) (sg : Nat) (s : State) (c : Cmd),
    let a := s.advance t
    (a.starting x tag.toNat 0x0001 = some c →
      (c.payload = [] → exec (.nop t x tag) s = .next (a.complete x c .done))
      ∧ (c.payload ≠ [] → exec (.nop t x tag) s = .next (a.complete x c .badParam)))
    ∧ (a.starting x tag.toNat 0x0002 = some c → c.payload = [] →
        (c.sgEntries = 0 → exec (.getInfo t x tag sg) s = .next (a.complete x c .done (s.infoWord x)))
        ∧ (c.sgEntries ≠ 0 → c.sgAddr ≠ 0 → s.sgInDevice x = false → (s.ctx x).busOff = false → 64 ≤ sg →
            exec (.getInfo t x tag sg) s
              = .next (({ a with out := s.out ++ [.scatter x c.tag (s.infoRecord x)] } : State).complete x c .done (s.infoWord x))))
    ∧ (a.starting x tag.toNat 0x0003 = some c → c.payload = [] →
        (s.links.gln = .down → exec (.getRecovery t x tag sg) s = .next (a.complete x c .failedFault))
        ∧ (s.links.gln ≠ .down → ∃ s', exec (.getRecovery t x tag sg) s = .next s'
          ∧ s' = (let f := (a.sendAcross .cf (.nvCommand c.opcode 16 0 256)).nvFetch 16
                  let recs := allCtx.map (f.2.recoveryFor x f.1)
                  f.2.writeRecord x c sg recs.flatten ((recs.filter fun r => bitOf (leAt r 14 1) 0).length))))
    ∧ (a.starting x tag.toNat 0x0030 = some c → c.payload.length = 4 → leAt c.payload 0 4 < 2 ^ 14 →
        s.sec.rollback = none → s.sec.trialDue = false → exec (.eventArm t x tag) s
          = .next ((a.modCtx x fun k => { k with evtMask := BitVec.ofNat 14 (leAt c.payload 0 4) }).complete x c .done
              (s.ctx x).evtMask.toNat))

/-- ABORT ends a command at its abort point or waits for it; with nothing in flight on the tag it answers DONE with 1 (the model's
choice, log 89), and a command that writes a snapshot has no abort point (the model's readings, logs 120 and 121). COMMAND_TIMEOUT ends
a command as an abort does. RESET_CONTEXT empties the context; it stays authenticated (log 75). -/
def Obligations.AbortTimeoutAndReset : Prop :=
  ∀ (t : Time) (x : Ctx) (tag : BitVec 11) (s : State) (c : Cmd),
    let a := s.advance t
    let k := leAt c.payload 0 2
    (a.starting x tag.toNat 0x0020 = some c → c.payload.length = 2 → s.ownsTag x (k % 2048) = true → k / 2048 = s.genOf (k % 2048) →
      (((s.ctx x).inflight.find? fun d => d.tag % 2048 == k % 2048) = none →
        exec (.abort t x tag) s = .next (a.complete x c .done 1))
      ∧ ∀ d : Cmd, ((s.ctx x).inflight.find? fun d => d.tag % 2048 == k % 2048) = some d → d.tag % 2048 ≠ c.tag % 2048 →
          (d.wait = .notStarted →
            exec (.abort t x tag) s = .next ((a.complete x d .aborted 0 false).nvSettle.complete x c .done 0))
          ∧ (d.wait = .snapshot → exec (.abort t x tag) s = .next (a.await x c (.aborting (k % 2048)))))
    ∧ (∀ d : Cmd, ∀ due : Time, ((s.ctx x).inflight.find? fun d => d.tag % 2048 == tag.toNat) = some d → d.deadline = some due →
        due ≤ max s.time t →
        (d.wait = .notStarted → exec (.commandTimeout t x tag) s = .next (a.complete x d .timeout 0 false).nvSettle)
        ∧ (d.wait = .snapshot → exec (.commandTimeout t x tag) s = .next a))
    ∧ (a.starting x tag.toNat 0x0010 = some c → c.payload = [255] → ∃ s', exec (.resetContext t x tag) s = .next s'
        ∧ (s'.ctx x).staged = [] ∧ (s'.ctx x).evtMask = 0 ∧ (x.val < s.ctxs.length → (s'.ctx x).sets = List.replicate 16 .reset)
        ∧ (s'.ctx x).mv.starting = false ∧ (s'.ctx x).auth = (s.ctx x).auth ∧ s'.sec.otp.slots = s.sec.otp.slots)

/-- PARAM_READ of one ID, PARAM_WRITE of one staged value, and PARAM_COMMIT, which waits, discards the set or finds it empty. A read or
write of an F-die register crosses the guyline, as does the value that a read brings back, and without it completes FAILED_FAULT (the
model's reading of R282, log 126); a LEAD forwards the set of a commit to its PARTNER (log 117). -/
def Obligations.ParameterCommands : Prop :=
  ∀ (t : Time) (x : Ctx) (tag : BitVec 11) (s : State) (c : Cmd) (p : Param) (i : Nat),
    let a := s.advance t
    (a.starting x tag.toNat 0x1001 = some c → c.sgEntries = 0 → c.payload = leBytes 2 1 ++ leBytes 2 (p.id i) →
      paramOf (p.id i) = some (p, i) → p.row.access = .rws →
      (onFDie p i = false → exec (.paramRead t x tag 0) s = .next (a.complete x c .done (s.par p i)))
      ∧ (onFDie p i = true → s.fdieUp = true → exec (.paramRead t x tag 0) s
          = .next (((a.sendAcross .cf (.values [(p.id i, 0)])).sendAcross .fc
              (.values [(p.id i, BitVec.ofNat 32 (s.par p i))])).complete x c .done (s.par p i)))
      ∧ (onFDie p i = true → s.fdieUp = false → exec (.paramRead t x tag 0) s = .next (a.complete x c .failedFault)))
    ∧ (∀ w : Word, a.starting x tag.toNat 0x1001 = some c → c.sgEntries = 0 → c.payload = leBytes 2 0 ++ leBytes 2 (p.id i) →
        paramOf (p.id i) = some (p, i) → p.row.access = .rws → keyGet (s.ctx x).staged (p.id i) = some w →
        exec (.paramRead t x tag 0) s = .next (a.complete x c .done w.toNat))
    ∧ (∀ v : Nat, a.starting x tag.toNat 0x1002 = some c → c.payload = leBytes 2 (p.id i) ++ [0, 0] ++ leBytes 4 v →
        v < 2 ^ p.row.width → paramOf (p.id i) = some (p, i) → p.row.access = .rws → s.mayWrite x (p.id i) = true →
        s.partnerBars (p.id i) p = false → p.inRange (s.sec.otp.grade == 2) i v = true → p ≠ .pegXfer →
        exec (.paramWrite t x tag) s = .next ((a.modCtx x fun k =>
          { k with staged := keyPut k.staged (p.id i) (BitVec.ofNat 32 v) }).complete x c .done 1))
    ∧ (∀ v : Nat, a.starting x tag.toNat 0x1002 = some c → c.payload = leBytes 2 (p.id i) ++ [0, 0] ++ leBytes 4 v →
        v < 2 ^ p.row.width → paramOf (p.id i) = some (p, i) → p.row.access = .rw → onFDie p i = true → s.fdieUp = false →
        s.mayWrite x (p.id i) = true → s.partnerBars (p.id i) p = false → p.inRange (s.sec.otp.grade == 2) i v = true →
        exec (.paramWrite t x tag) s = .next (a.complete x c .failedFault))
    ∧ (a.starting x tag.toNat 0x1003 = some c →
        (c.payload = [1, 0, 0, 0] →
          exec (.paramCommit t x tag) s = .next ((a.modCtx x fun k => { k with staged := [] }).complete x c .done))
        ∧ (c.payload = [0, 0, 0, 0] → (s.ctx x).staged = [] →
          exec (.paramCommit t x tag) s = .next (a.complete x c .done 0xFFFFFFFF))
        ∧ (c.payload = [0, 0, 0, 0] → (s.ctx x).staged ≠ [] → exec (.paramCommit t x tag) s
          = .next ((a.forwardCommit c (s.ctx x).staged).await x c .commitDue)))

/-- A commit is evaluated at the tick, after the frame being read has ended, or after 100 ms without one, each in fetch order and only
while it is in flight. A set that is not coherent on this device or on its PARTNER changes no active parameter and stays staged: the
report is all. A coherent one becomes active whole, at once or, with a persistent value, through the NV store. The model's own in this:
the instants at which COMMIT_EVALUATION acts (tickInstant) and the 100 ms of a commit behind its transaction (log 70), the mask bits of a
failing budget check (log 140), which parameter the report names first (log 15), NV_FULL below 64 spare pages (log 65), values of the
F-die that need the guyline (log 126), and the exchange with the PARTNER (log 117). -/
def Obligations.CommitsApplyWholeOrNotAtAll : Prop :=
  ∀ (t : Time) (s : State),
    let a := s.advance t
    let now := max s.time t
    let one (frame : Nat) (atTick : Bool) (u : State) (e : Ctx × Cmd) : State :=
      match (u.ctx e.1).inflight.find? fun c => c.order == e.2.order with
      | some c => u.commitStep e.1 c frame atTick
      | none => u
    let all (due : Cmd → Bool) (frame : Nat) (atTick : Bool) (u : State) : State := (u.dueCommits due).foldl (one frame atTick) u
    let due := dueAtTick s.tick.next
    let e := a.endReading
    let frame := if (all due 0 true e).willNumber then e.tick.nextFrame % 2 ^ 32 else 0xFFFFFFFF
    (a.tickInstant = true → exec (.commitEvaluation t) s = .next (all due frame true e))
    ∧ (a.tickInstant = false → exec (.commitEvaluation t) s = .next a)
    ∧ (s.anyStream = false → exec (.commitNoTickTimeout t) s
        = .next ((all (dueWithoutTick now) 0xFFFFFFFF false a).syncVerdicts.takeSource now))
    ∧ (s.anyStream = true → exec (.commitNoTickTimeout t) s = .next a)
    ∧ ∀ (x : Ctx) (c : Cmd) (n : Nat) (tick : Bool), c.wait = .commitDue →
        let staged := (s.ctx x).staged
        let u := s.commitStep x c n tick
        (s.peerMask c staged = none → u = s.forwardCommit c staged)
        ∧ (staged = [] → u = s.complete x c .done 0xFFFFFFFF)
        ∧ ∀ peer : Nat, s.peerMask c staged = some peer → staged ≠ [] →
          let mask := (s.coherence staged).mask ||| peer
          (mask ≠ 0 ∨ s.reaches staged = false →
            (∀ (p : Param) (i : Nat), i < p.row.count → p ≠ .hostEvtLost → p ≠ .sampleLostCnt → u.par p i = s.par p i)
            ∧ (∀ y : Ctx, (u.ctx y).staged = (s.ctx y).staged)
            ∧ u.tick = s.tick ∧ u.tiles = s.tiles ∧ u.drift = s.drift ∧ u.nv = s.nv ∧ u.mem = s.mem ∧ u.frames = s.frames)
          ∧ (s.reaches staged = false → u = (s.tellDecision c false tick).complete x c .failedFault)
          ∧ (s.reaches staged = true → mask ≠ 0 → u = ((s.tellDecision c false tick).ctxEvent x 0x0E00 (leBytes 4 mask
              ++ leBytes 2 ((s.coherence staged).first.getD 0) ++ [0, 0] ++ leBytes 4 c.hseq)).complete x c .incoherent mask)
          ∧ (s.reaches staged = true → mask = 0 →
            (s.stagesPersistent x = false →
              u = (((s.tellDecision c true tick).applyStaged staged).unstage x staged).complete x c .done n)
            ∧ (s.stagesPersistent x = true →
              (s.nvUp = false → u = (s.tellDecision c false tick).complete x c .failedFault)
              ∧ (s.nvUp = true → s.nv.spares.length < 64 → u = (s.tellDecision c false tick).complete x c .nvFull)
              ∧ (s.nvUp = true → 64 ≤ s.nv.spares.length → u = (s.await x c (.commitNv none staged)).nvSubmit
                { ups := [], now := true, owner := some (x, c.tag % 2048), act := .params staged })))

/-- STREAM_START waits for its tick, STREAM_STOP for its last frame. A start meets a thermal shutdown, a coast (R356), a guyline that is
down, a detached device and a stop under way with BUSY, and an open debug level 2 with NOT_PERMITTED (R414). A stop withdraws a start
that waits and of a stream that is not started answers DONE_MARKED. That a stop of a stream whose earlier stop drains waits with it, as
one of a started stream, and that a start of a started stream is withdrawn too, is the model's reading of R281 (log 145). -/
def Obligations.StreamCommands : Prop :=
  ∀ (t : Time) (x : Ctx) (tag : BitVec 11) (s : State) (c : Cmd),
    let a := s.advance t
    (∀ m : Nat, a.starting x tag.toNat 0x2001 = some c → c.payload = leBytes 4 m → m ≠ 0 → m < 8 →
      (∀ p : Fin 2, bitOf m (p.val + 1) = true → s.portOwner p.val = x ∧ s.portFormat p.val ≠ 0) →
      (s.dbg.level = 2 → exec (.streamStart t x tag) s = .next (a.complete x c .notPermitted))
      ∧ (s.dbg.level ≠ 2 → (bitOf m 0 = true → (s.ctx x).overflow ≠ none) →
        (s.thm.shutdown = true ∨ s.links.gln = .down ∨ s.coasting = true ∨ s.pair.mode = .detached ∨ s.stopPending x c m = true →
          exec (.streamStart t x tag) s = .next (a.complete x c .busy))
        ∧ (s.thm.shutdown = false → s.links.gln ≠ .down → s.coasting = false → s.pair.mode ≠ .detached → s.stopPending x c m = false →
          s.outs.length = 2 →
          let live (k : Nat) : Bool := (s.stream x k).started && !(s.stream x k).stopping
          ∃ u, exec (.streamStart t x tag) s = .next (u.await x c (.streams m ((streamsIn m).any live)))
            ∧ u = (streamsIn m).foldl (fun s k => s.modStream x k fun e => { e with starting := true }) a
            ∧ ∀ k : Nat, k < 3 → u.stream x k = if bitOf m k then { s.stream x k with starting := true } else s.stream x k)))
    ∧ (a.starting x tag.toNat 0x2002 = some c → c.payload = [1, 0, 0, 0] →
        ((s.ctx x).mv.starting = false → (s.ctx x).mv.started = true → exec (.streamStop t x tag) s
          = .next ((a.modCtx x fun k => { k with mv := { k.mv with stopping := true } }).await x c (.stopping 1 false)))
        ∧ ((s.ctx x).mv.starting = true → (s.ctx x).mv.started = true ∨ s.stopWaits x 0 = true → exec (.streamStop t x tag) s
          = .next (((a.withdraw x 1).modStream x 0 fun e => { e with stopping := e.stopping || e.started }).await x c
              (.stopping 1 false)))
        ∧ ((s.ctx x).mv.starting = false → (s.ctx x).mv.started = false → s.stopWaits x 0 = true →
          exec (.streamStop t x tag) s = .next (a.await x c (.stopping 1 false)))
        ∧ ((s.ctx x).mv.started = false → s.stopWaits x 0 = false →
          exec (.streamStop t x tag) s
            = .next ((if (s.ctx x).mv.starting then a.withdraw x 1 else a).complete x c .doneMarked 0xFFFFFFFF)))
    ∧ (((s.ctx x).inflight.find? fun c => c.tag % 2048 == tag.toNat) = some c → c.wait = .stopping 1 false →
        ((s.ctx x).mv.started = false → s.streamOwes x 0 = false → exec (.streamStopComplete t x tag) s
          = .next ((a.modCtx x fun k => { k with mv := { k.mv with draining := false } }).complete x c .done
              ((s.ctx x).mv.lastFrame % 2 ^ 32)))
        ∧ ((s.ctx x).mv.started = true ∨ s.streamOwes x 0 = true → exec (.streamStopComplete t x tag) s = .next a))

/-- BUFFER_BIND and BUFFER_RELEASE. A release takes the sets of its mask, with UNBIND it unbinds them, and with bit 16 the overflow slot
too, which a started stream of the context keeps; RESULT names the sets that were held or, with UNBIND, bound. -/
def Obligations.BufferCommands : Prop :=
  ∀ (t : Time) (x : Ctx) (tag : BitVec 11) (s : State) (c : Cmd),
    let a := s.advance t
    let n := leAt c.payload 0 1
    let b : BufSet := { state := .free, entries := (List.range 20).map (bindEntry c.payload) }
    (a.starting x tag.toNat 0x2010 = some c → bindOk c.payload = true →
      (n = 255 → exec (.bufferBind t x tag) s
        = .next ((a.modCtx x fun k => { k with overflow := some (bindEntry c.payload 19) }).complete x c .done 255))
      ∧ (n < 16 → ((s.ctx x).sets.getD n .reset).state ≠ .free →
          exec (.bufferBind t x tag) s = .next (a.complete x c .busy))
      ∧ (n < 16 → ((s.ctx x).sets.getD n .reset).state = .free → exec (.bufferBind t x tag) s
        = .next ((a.modCtx x fun k => { k with sets := k.sets.set n b }).complete x c .done n)))
    ∧ (a.starting x tag.toNat 0x2011 = some c → c.payload.length = 4 →
        let v := leAt c.payload 0 4
        let unbind := bitOf v 17
        let set (k : Nat) : BufSet := (s.ctx x).sets.getD k .reset
        (2 ^ 18 ≤ v → exec (.bufferRelease t x tag) s = .next (a.complete x c .badParam))
        ∧ (v < 2 ^ 18 → (∃ k : Nat, k < 16 ∧ bitOf v k = true ∧ (set k).state = .filling) →
          exec (.bufferRelease t x tag) s = .next (a.complete x c .busy))
        ∧ (v < 2 ^ 18 → bitOf v 16 = true → unbind = true → s.hasStream x = true →
          exec (.bufferRelease t x tag) s = .next (a.complete x c .busy))
        ∧ (v < 2 ^ 18 → (∀ k : Nat, k < 16 → bitOf v k = true → (set k).state ≠ .filling) →
          (bitOf v 16 = true → unbind = true → s.hasStream x = false) → (s.ctx x).sets.length = 16 →
          ∃ (u : State) (r : Nat), exec (.bufferRelease t x tag) s = .next (u.complete x c .done r)
            ∧ (∀ k : Nat, k < 16 → (u.ctx x).sets.getD k .reset
                = if bitOf v k then (if unbind then .reset else { set k with state := .free }) else set k)
            ∧ (u.ctx x).overflow = (if bitOf v 16 && unbind then none else (s.ctx x).overflow)
            ∧ (∀ k : Nat, k < 16 → bitOf r k = (bitOf v k && ((set k).state == .held || (unbind && !(set k).entries.isEmpty))))
            ∧ bitOf r 16 = (bitOf v 16 && unbind && (s.ctx x).overflow.isSome) ∧ r < 2 ^ 17
            ∧ (∀ y : Ctx, y ≠ x → u.ctx y = s.ctx y) ∧ u.mem = s.mem ∧ u.regs = s.regs)
        ∧ (∀ b : Nat, b < 16 → leAt c.payload 0 4 = 2 ^ b → ((s.ctx x).sets.getD b .reset).state = .filling →
          exec (.bufferRelease t x tag) s = .next (a.complete x c .busy))
        ∧ (∀ b : Nat, b < 16 → b < (s.ctx x).sets.length → leAt c.payload 0 4 = 2 ^ b →
            ((s.ctx x).sets.getD b .reset).state = .held → ∃ s', exec (.bufferRelease t x tag) s = .next s'
              ∧ ((s'.ctx x).sets.getD b .reset) = { ((s.ctx x).sets.getD b .reset) with state := .free }
              ∧ (∀ d : Nat, d ≠ b → (s'.ctx x).sets.getD d .reset = (s.ctx x).sets.getD d .reset)
              ∧ (s'.ctx x).overflow = (s.ctx x).overflow ∧ s'.mem = s.mem))

/-! Trust and firmware (chapter 10). -/

/-- The firmware commands act on the inactive slot, and its state follows in one transaction; they read the page of the slot states
first, and a part of a download crosses the guyline. FW_VERIFY and FW_CONFIRM carry no payload (Table 9.11): with one they complete
BAD_PARAM. A part that commits nothing needs no spare page. Where the NV store keeps the slot states (log 5), that the parts of a download
are held until the last one (log 20), which slot is the inactive one in the basecamp image (log 19), NV_FULL below 64 spare pages (log 65)
and the message of a part (log 107) are the model's choices. -/
def Obligations.FirmwareCommands : Prop :=
  ∀ (t : Time) (x : Ctx) (tag : BitVec 11) (s : State) (c : Cmd), s.roleOf x = 1 → s.nvUp = true →
    let a := s.advance t
    let b := a.nvFetchAll [fwPage]
    let slot := s.inactiveSlot
    let flags := leAt c.payload 8 4
    (∀ area old : Bytes, a.starting x tag.toNat 0x8001 = some c → b.inTrial = false → c.payload.length = 12 → flags < 4 →
      (if bitOf flags 0 then some [] else s.sec.dl) = some old → leAt c.payload 0 4 = old.length → c.sgAddr ≠ 0 →
      s.sgInDevice x = false → leAt c.payload 4 4 = area.length → area.length % 4096 = 0 → area.length ≤ 0x100000 →
      old.length + area.length ≤ 0x2000000 →
      let e := b.sendAcross .cf (.firmware b.inactiveSlot old.length area)
      (flags = 0 → exec (.fwDownload t x tag area) s
        = .next ((e.modSec fun k => { k with dl := some (old ++ area) }).complete x c .done (old.length + area.length)))
      ∧ (flags ≠ 0 → b.nv.spares.length < 64 → exec (.fwDownload t x tag area) s = .next (b.complete x c .nvFull))
      ∧ (64 ≤ b.nv.spares.length →
        (flags = 1 → exec (.fwDownload t x tag area) s = .next ((e.modSec fun k => { k with dl := some area }).persistAs x c
            (.download 1 [] none) [(fwPage, b.inactiveSlot, [0])] true))
        ∧ (flags = 2 → exec (.fwDownload t x tag area) s = .next ((e.modSec fun k => { k with dl := none }).persistAs x c
            (.download 2 (old ++ area) none) [(fwPage, b.inactiveSlot, [1])] true))
        ∧ (flags = 3 → exec (.fwDownload t x tag area) s = .next ((e.modSec fun k => { k with dl := none }).persistAs x c
            (.download 1 area none) [(fwPage, b.inactiveSlot, [0])] true))))
    ∧ (∀ (data : Bytes) (k : Option Nat), c.wait = .download 1 data k →
        (bitOf flags 0 = true → bitOf flags 1 = false → s.downloadGoesOn [(x, c)] true
          = (s.modSec fun k => { k with flash := k.flash.set slot [] }).complete x c .done (leAt c.payload 4 4))
        ∧ s.downloadGoesOn [(x, c)] false = s.modSec fun k => { k with dl := none })
    ∧ (∀ area : Bytes, a.starting x tag.toNat 0x8001 = some c → b.inTrial = true →
        exec (.fwDownload t x tag area) s = .next (b.complete x c .busy))
    ∧ (a.starting x tag.toNat 0x8002 = some c →
        (b.inTrial = true → exec (.fwVerify t x tag) s = .next (b.complete x c .busy))
        ∧ (b.inTrial = false → c.payload ≠ [] → exec (.fwVerify t x tag) s = .next (b.complete x c .badParam))
        ∧ (b.inTrial = false → c.payload = [] →
          (b.fwState slot = 0 → exec (.fwVerify t x tag) s = .next (b.complete x c .imageBad))
          ∧ (b.fwState slot ≠ 0 → exec (.fwVerify t x tag) s
            = .next (let v := b.verified (b.imageSignatures (b.image slot))
              match v.imageRefusal (v.image slot) with
              | some st => v.complete x c st
              | none => v.persist x c [(fwPage, slot, [2])] true (some (imageVersion (v.image slot)))))))
    ∧ (a.starting x tag.toNat 0x8003 = some c →
        (b.inTrial = true → exec (.fwActivate t x tag) s = .next (b.complete x c .busy))
        ∧ (b.inTrial = false → c.payload.length ≠ 4 ∨ 2 ≤ leAt c.payload 0 4 ∨ b.fwState slot ≠ 2 →
          exec (.fwActivate t x tag) s = .next (b.complete x c .badParam))
        ∧ (b.inTrial = false → c.payload.length = 4 → leAt c.payload 0 4 < 2 → b.fwState slot = 2 →
          exec (.fwActivate t x tag) s = .next (b.persist x c [(fwPage, slot, [3])] true (some 0))))
    ∧ (s.restartDelay [(x, c)]
        = if bitOf (leAt c.payload 0 4) 0 then s.modSec fun k => { k with restartAt := some (s.time + 10000000) } else s)
    ∧ (a.starting x tag.toNat 0x8004 = some c →
        (c.payload ≠ [] → exec (.fwConfirm t x tag) s = .next (a.complete x c .badParam))
        ∧ (c.payload = [] → b.inTrial = false → exec (.fwConfirm t x tag) s = .next (b.complete x c .doneMarked))
        ∧ ∀ k : Nat, c.payload = [] → b.sec.runningSlot = some k → b.fwState k = 4 → exec (.fwConfirm t x tag) s
          = .next (b.persist x c [(fwPage, k, [5]), (fwPage, 1 - k, [2]), (fwPage, 2, [0, 1]),
              (fwPage, 4, leBytes 2 (imageArb (b.image k)))] true (some 0)))

/-- AUTH_CHALLENGE and AUTH_RESPONSE, their failures, and the ends of a challenge and of a lockout. That a key off the curve is a bad
payload, checked ahead of the mode, and that the failure count starts afresh with a lock are the model's readings (log 80). A context
key stands in the NV store, and without the guyline a response that needs it completes FAILED_FAULT (R282). -/
def Obligations.HostAuthentication : Prop :=
  ∀ (t : Time) (x : Ctx) (tag : BitVec 11) (s : State) (c : Cmd),
    let a := s.advance t
    let mode := leAt c.payload 129 1
    let slot := leAt c.payload 130 1
    let keyOk := Config.p384Valid (sliceB 32 97 c.payload)
    (∀ sg : Nat, a.starting x tag.toNat 0x7001 = some c → c.payload.length = 132 → leAt c.payload 131 1 = 0 →
      (keyOk = false → exec (.authChallenge t x tag sg) s = .next (a.complete x c .badParam))
      ∧ (keyOk = true → s.modeFor x ≠ some mode ∨ (mode = 1 ∧ (3 < slot ∨ (s.sec.otp.slots.getD slot (0, [])).1 ≠ 1))
          ∨ (s.boot = .basecamp ∧ s.nvUp = false ∧ mode ≠ 1) →
        exec (.authChallenge t x tag sg) s = .next (a.complete x c .notPermitted))
      ∧ (keyOk = true → s.modeFor x = some mode → (mode = 1 → slot ≤ 3 ∧ (s.sec.otp.slots.getD slot (0, [])).1 = 1) →
        (s.boot = .basecamp → s.nvUp = true ∨ mode = 1) →
        (∀ u : Time, (s.ctx x).lockUntil = some u → max s.time t < u →
          exec (.authChallenge t x tag sg) s = .next (a.complete x c .locked))
        ∧ ((∀ u : Time, (s.ctx x).lockUntil = some u → u ≤ max s.time t) → c.sgAddr ≠ 0 → s.sgInDevice x = false → 228 ≤ sg →
          x.val < s.ctxs.length → ∃ s', exec (.authChallenge t x tag sg) s = .next s'
            ∧ (∃ h : Challenge, (s'.ctx x).challenge = some h ∧ h.mode = mode ∧ h.slot = slot
              ∧ h.hn = sliceB 0 32 c.payload ∧ h.expires = max s.time t + 10000000000) ∧ s'.sec.draws = s.sec.draws + 3)))
    ∧ (a.starting x tag.toNat 0x7002 = some c →
        ((s.ctx x).challenge = none → c.payload.length = 96 ∨ c.payload.length = 320 → exec (.authResponse t x tag) s
          = .next ((a.authFailed x ((s.modeFor x).getD 0)).complete x c .authFail))
        ∧ ∀ h : Challenge, (s.ctx x).challenge = some h → c.payload.length = (if h.mode = 2 then 320 else 96) →
          (h.expires ≤ max s.time t → exec (.authResponse t x tag) s = .next ((a.authFailed x h.mode).complete x c .authFail))
          ∧ (max s.time t < h.expires → h.mode = 0 → s.nvUp = false →
            exec (.authResponse t x tag) s = .next (a.complete x c .failedFault))
          ∧ (max s.time t < h.expires → (h.mode = 0 → s.nvUp = true) → x.val < s.ctxs.length →
            let v := (if h.mode = 0 then a.nvFetchAll [(keyPlace x).1] else a).verified ([1, 1, 2].getD h.mode 0)
            ∃ s', exec (.authResponse t x tag) s = .next s' ∧ s'.mem = s.mem
            ∧ (v.proofOk x h c.payload = false → s' = (v.authFailed x h.mode).complete x c .authFail)
            ∧ (v.proofOk x h c.payload = true → (s'.ctx x).challenge = none ∧ (s'.ctx x).authFails = 0
              ∧ ∃ k : Auth, (s'.ctx x).auth = some k ∧ k.mode = h.mode ∧ k.t1 = h.t1
                ∧ (h.mode ≠ 2 → k.grant = none) ∧ (h.mode = 2 → k.grant.map (·.rights) = some (leAt c.payload 118 1)))))
    ∧ (∀ mode : Nat, x.val < s.ctxs.length → (s.ctx x).authFails = 7 →
        ((s.authFailed x mode).ctx x).lockUntil = some (s.time + 60000000000) ∧ ((s.authFailed x mode).ctx x).authFails = 0)
    ∧ (∀ h : Challenge, (s.ctx x).challenge = some h → h.expires ≤ max s.time t →
        exec (.authChallengeExpiry t x) s = .next (a.modCtx x fun k => { k with challenge := none }))
    ∧ (∀ u : Time, (s.ctx x).lockUntil = some u → u ≤ max s.time t →
        exec (.authLockoutEnd t x) s = .next (a.modCtx x fun k => { k with lockUntil := none }))

/-- ATTEST hands out its record, signed over its first 200 bytes, with the caller's nonce, and answers its length (R307).
OWNER_PROVISION refuses without effect or waits for the transaction that holds it; below 64 spares it completes NV_FULL, and without the
guyline FAILED_FAULT (the model's readings, log 65); its effect on the owner slots and the grant epoch follows the commit. -/
def Obligations.AttestationAndProvisioning : Prop :=
  ∀ (t : Time) (x : Ctx) (tag : BitVec 11) (s : State) (c : Cmd),
    let a := s.advance t
    let op := leAt c.payload 0 1
    let arg := leAt c.payload 1 1
    let key := sliceB 4 97 c.payload
    (∀ sg : Nat, a.starting x tag.toNat 0x7010 = some c →
      (c.payload.length ≠ 48 → exec (.attest t x tag sg) s = .next (a.complete x c .badParam))
      ∧ (c.payload.length = 48 → c.sgAddr ≠ 0 → s.sgInDevice x = false → (s.ctx x).busOff = false →
        let b := if s.nvUp then a.nvFetchAll (List.range 8) else a
        let r := b.attestRecord x c.payload
        r.1.length ≤ sg →
        exec (.attest t x tag sg) s
          = .next (({ r.2 with out := r.2.out ++ [.scatter x c.tag r.1] } : State).complete x c .done r.1.length)
        ∧ sliceB 0 16 r.1 = devId ∧ sliceB 16 4 r.1 = leBytes 4 (b.infoWord x) ∧ sliceB 48 48 r.1 = c.payload
        ∧ sliceB 200 96 r.1 = padTo 96 (Config.ecdsaSign identityKey (sha (ascii "KAT1" ++ r.1.take 200)) b.sec.draws)
        ∧ r.1.drop 296 = b.certificate ∧ r.2.sec.draws = b.sec.draws + 1 ∧ r.2.sec.otp = b.sec.otp ∧ r.2.mem = s.mem))
    ∧ (a.starting x tag.toNat 0x7020 = some c → s.nvUp = false → exec (.ownerProvision t x tag) s = .next (a.complete x c .failedFault))
    ∧ (a.starting x tag.toNat 0x7020 = some c → s.nvUp = true →
        (∀ st, s.ownerRefusal x c = some st → exec (.ownerProvision t x tag) s
          = .next ((if op = 5 ∧ st = .authFail then a.verified 1 else a).complete x c st))
        ∧ (s.ownerRefusal x c = none →
          let b := if op = 5 then a.verified 1 else a
          let job (w : Wait) (ups : List (Nat × Nat × Bytes)) (act : NvAct) : State :=
            (b.await x c w).nvSubmit { ups, now := true, owner := some (x, c.tag % 2048), act }
          (s.nv.spares.length < 64 → exec (.ownerProvision t x tag) s = .next (b.complete x c .nvFull))
          ∧ (64 ≤ s.nv.spares.length →
            (op ≠ 4 → op ≠ 5 → exec (.ownerProvision t x tag) s = .next (job (.nvQueued (some 0)) [] .plain))
            ∧ (op = 4 → exec (.ownerProvision t x tag) s
              = .next (job (.nvQueued (some 0)) [((keyPlace arg).1, (keyPlace arg).2, key)] .plain))
            ∧ (op = 5 → exec (.ownerProvision t x tag) s
              = .next (job (.transfer 1 none) [(10, 0, padTo 48 (sha key))] (.transfer key))))))
    ∧ (let e := s.provisionEffect c
       (op = 1 → e.sec.otp.slots = s.sec.otp.slots.set 0 (1, key) ∧ e.sec.otp.owned = true)
       ∧ (∀ k : Nat, op = 2 → s.unusedSlot = some k → e.sec.otp.slots = s.sec.otp.slots.set k (1, key))
       ∧ (op = 3 → e.sec.otp.slots = s.sec.otp.slots.modify arg fun k => (2, k.2))
       ∧ (op = 4 → e.sec.otp = s.sec.otp)
       ∧ (op = 6 → e.sec.otp.epoch = min 512 (s.sec.otp.epoch + 1) ∧ e.sec.otp.slots = s.sec.otp.slots))
/-! Links (R41 to R52, R325) and the Vexnex pair (chapter 11). -/

/-- The receiver answers each flit. A good data flit counts for the next ACK; in sequence it joins the open message of its class, which
acts when it is whole, and the second copy of a flit that was resent acts no more (the model's reading, log 101). A class-0 event acts
once, whichever of its two copies comes first; a broken sideband word is counted, and the lanes carry events only while they are up. The
clauses rest on choices of the model: that a wrong START or STOP bit breaks a word like a bad CHECK (log 102), the initial value of the
CRC-4 (log 11), the order of the bits in the CRC-16 of a flit (log 25), that the other die acts at the first copy (log 26), and the
layout of the messages (log 107). -/
def Obligations.FlitsAndClassZeroEvents : Prop :=
  (∀ (t : Time) (d : LinkDir) (flit : BitVec 256) (s : State), s.linkUp d = true →
     let v := flit.toNat
     let c := flitClass v
     let o := oppositeDir d
     let body := (if flitSom v then [] else (s.side d).partials.getD c []) ++ flitPayload v
     let a := if d = .fc then (s.advance t).perfEvent 5 0x10 else s.advance t
     let b := a.modSide d fun k => { k with rxSeq := (flitSeq v + 1) % 256, partials := k.partials.set c (if flitEom v then [] else body) }
     let good (u : State) : State := u.modSide d fun k => { k with unacked := k.unacked + 1 }
     (flitGood v = false → ∃ s', exec (.linkFlitReceived t d flit) s = .next s' ∧ (s'.side d).sent = some (2, (s.side d).rxSeq)
         ∧ (s'.side d).rxSeq = (s.side d).rxSeq ∧ (s'.side d).unacked = (s.side d).unacked ∧ s'.mem = s.mem ∧ s'.frames = s.frames)
       ∧ (flitGood v = true → flitLink v = false → flitSeq v = (s.side d).rxSeq →
           exec (.linkFlitReceived t d flit) s = .next (good (if flitEom v then b.message d c body else b)))
       ∧ (flitGood v = true → flitLink v = false → flitSeq v ≠ (s.side d).rxSeq →
           exec (.linkFlitReceived t d flit) s = .next (good a))
       ∧ (flitGood v = true → flitLink v = true →
           (flitCode v = 1 → exec (.linkFlitReceived t d flit) s
             = .next ((a.modSide o fun k => { k with replay := ackTo (flitSeq v) k.replay }).pump o))
           ∧ (flitCode v = 2 → exec (.linkFlitReceived t d flit) s
             = .next (((a.modSide o fun k => { k with replay := ackTo ((flitSeq v + 255) % 256) k.replay }).replay o).pump o))))
    ∧ (∀ (s : State) (b : Bytes),
         (∀ (frame : Nat) (ts : Time), parseMsg b = some (.frameStart frame ts) → s.message .fc 1 b = s.frameStarts frame ts)
         ∧ (∀ ch w : Nat, parseMsg b = some (.hkResult ch w) →
             s.message .fc 1 b = s.modHk fun h => { h with shown := h.shown.set ch w })
         ∧ (∀ (frame row : Nat) (t : Tile) (dig : Bool) (words : List Nat), parseMsg b = some (.videoRow frame t.val row dig words) →
             s.message .fc 1 b = (s.processRow frame t row words).exchange frame false t)
         ∧ (∀ (code : Nat) (detail : Bytes) (at_ : Stamp), parseMsg b = some (.event at_ code detail) →
             s.message .fc 2 b = s.devEventAt code detail at_)
         ∧ (∀ rows : List (Int × Nat × Bool), parseMsg b = some (.adcTrim rows) →
             s.message .cf 2 b = s.modHk fun h => { h with trim := rows })
         ∧ (∀ vals : List Nat, parseMsg b = some (.sensors vals) → s.message .cf 1 b
             = s.modHk fun h => { h with remote := (List.range 8).map fun i => (vals[i]?).map fun v => (v, s.time) })
         ∧ ∀ c : Nat, s.message .vx c b = s)
    ∧ (∀ (t : Time) (w : Wire) (s : State),
          let low := (s.acted w).1
          let rec_ := (s.acted w).2
          let first (u : State) (k code detail cause : Nat) : State :=
            let num := (low + k) % 65536
            let u := u.setActed w (slide 16 (low, rec_ ||| BitVec.ofNat 16 (2 ^ k)))
            ({ u with links := { u.links with raised := s.links.raised.filter fun r => !(r.1 == w && r.2.1 == num) } } : State).act0 w
              code detail cause
          (∀ word : BitVec 20, sidebandOk w word.toNat = false →
            exec (.sidebandWordReceived t w word) s = .next (((s.advance t).wordSent w).bump .glnSbErrCnt))
          ∧ (∀ word : BitVec 20, sidebandOk w word.toNat = true →
              let v := word.toNat
              let k := (bitsOf v 14 11 + 16 - low % 16) % 16
              (rec_.getLsbD k = true → exec (.sidebandWordReceived t w word) s = .next ((s.advance t).wordSent w))
              ∧ (rec_.getLsbD k = false → exec (.sidebandWordReceived t w word) s
                = .next (first ((s.advance t).wordSent w) k (bitsOf v 4 1) (bitsOf v 10 5) (s.raisedCause w ((low + k) % 65536)))))
          ∧ (∀ (num : BitVec 16) (code : BitVec 4) (detail : BitVec 6) (cause : Nat),
              let k := (num.toNat + 65536 - low) % 65536
              let a := (s.advance t).perfEvent 5 0x13
              (s.linkUp (laneOf w) = false → exec (.class0Message t w num code detail cause) s = .next (s.advance t))
                ∧ (s.linkUp (laneOf w) = true → 16 ≤ k ∨ rec_.getLsbD k = true →
                  exec (.class0Message t w num code detail cause) s = .next a)
                ∧ (s.linkUp (laneOf w) = true → k < 16 → rec_.getLsbD k = false →
                  exec (.class0Message t w num code detail cause) s = .next (first a k code.toNat detail.toNat cause))))
    ∧ (∀ (s : State) (detail cause : Nat),
          ((s.act0 .fc 1 detail cause).clk.pfwSeenC = (s.clk.pfwSeenC || s.clk.pfw) ∧ (s.act0 .fc 1 detail cause).frames = s.frames
            ∧ (s.act0 .fc 1 detail cause).mem = s.mem)
          ∧ s.act0 .fc 2 detail cause = s.devEvent 0x0600 (leBytes 1 detail ++ leBytes 1 cause)
          ∧ s.act0 .fc 4 detail cause = s.shutdownC detail ∧ s.act0 .cf 1 detail cause = s.shutdownF (cause == 1)
          ∧ s.act0 .cf 3 detail cause = s.coastF (cause == 1))

/-- The acknowledge timer, which a link that is not up does not run (R46), the replay after 2 µs and the window of replays; a further
replay in a window that is full starts one more retrain (log 127). The end of a retrain: the guyline is up at its width, or down after
three failures in a row; the Vexnex link takes eight lanes both ways or none, and tries again after a failure (log 30). -/
def Obligations.LinkTimersAndRetrains : Prop :=
  (∀ (t : Time) (d : LinkDir) (s : State),
     ((s.side d).unacked ≠ 0 → s.linkUp d = true → exec (.linkAckTimer t d) s
         = .next (((s.advance t).modSide d fun k => { k with sent := some (1, (k.rxSeq + 255) % 256), unacked := 0 }).modSide
             (oppositeDir d) fun k => k.noteFlits (max s.time t) 1))
     ∧ ((s.side d).unacked = 0 ∨ s.linkUp d = false → exec (.linkAckTimer t d) s = .next (s.advance t))
     ∧ (∀ (e : BitVec 256 × Time) (r : List (BitVec 256 × Time)), (s.side d).replay = e :: r → e.2 + 2000 ≤ max s.time t →
         s.linkUp d = true → ∃ s', exec (.linkAckTimeout t d) s = .next s'
           ∧ (s'.side d).replay = (e :: r).map (fun k => (k.1, max s.time t))
           ∧ (s'.side d).window = (if (s.side d).windowAt = windowOf (max s.time t) then (s.side d).window else 0) + 1
           ∧ (s.par (retrainLimit d) ≤ (s'.side d).window → s'.linkUp d = false)
           ∧ ((s'.side d).window < s.par (retrainLimit d) → s'.linkUp d = true))
     ∧ exec (.linkReplayWindow t d) s = .next (if (s.side d).windowAt < windowOf (max s.time t) then
         (s.advance t).modSide d fun k => { k with window := 0, windowAt := windowOf (max s.time t) } else s.advance t))
    ∧ (∀ (t : Time) (d : LinkDir) (n m : Nat) (s : State),
          (d ≠ .vx → s.links.gln = .retraining → 8 ≤ n → 2 ≤ m → exec (.linkRetrainDone t d n m []) s
              = .next ((((({ s.advance t with links := { s.links with
                  gln := .up, failed := 0, width := (if 16 ≤ n then 4 else 3) + 16 * (if 4 ≤ m then 4 else 2) } } : State).modSide .fc
                    fun k => k.resend (max s.time t)).modSide .cf fun k => k.resend (max s.time t)).pump .fc).pump .cf))
          ∧ (d ≠ .vx → s.links.gln = .retraining → n < 8 ∨ m < 2 → s.links.failed = 2 → ∃ s',
              exec (.linkRetrainDone t d n m []) s = .next s' ∧ s'.links.gln = .down ∧ s'.frames = []
                ∧ ∀ x : Ctx, (s'.ctx x).mv.started = false)
          ∧ (d ≠ .vx → s.links.gln = .retraining → n < 8 ∨ m < 2 → s.links.failed < 2 → ∃ s',
              exec (.linkRetrainDone t d n m []) s = .next s' ∧ s'.links = { s.links with failed := s.links.failed + 1 }
                ∧ s'.frames = s.frames)
          ∧ (s.boot ≠ .running ∨ s.thm.shutdown = true → exec (.linkRetrainDone t .vx n m []) s = .next (s.advance t))
          ∧ (s.boot = .running → s.thm.shutdown = false → s.links.vxState = .training ∨ s.links.vxState = .retraining →
              exec (.linkRetrainDone t .vx n m []) s
                = .next (if 8 ≤ n ∧ 8 ≤ m then
                    (({ s.advance t with links := { s.links with vxState := .up } } : State).modSide .vx fun k =>
                      if s.links.vxState = .retraining then k.resend (max s.time t) else .reset).pump .vx
                  else { s.advance t with links := { s.links with vxState := .down } })))


/-- PAIR_JOIN: its checks 1 and 2, MODE 2, the wait for the peer, which goes on when the event comes again (log 21), the end of the wait,
checks 4 and 5, each with its number in RESULT, and a join that passes them: state JOINING with the link key. PAIR_STATUS, which carries
no payload (Table 9.11), and PAIR_HANDOVER, which waits for a frame blank (log 76). What the devices sign is put together as log 116 has
it, and what this one presents crosses the link in the clear (log 107). -/
def Obligations.PairCommands : Prop :=
  ∀ (t : Time) (x : Ctx) (tag : BitVec 11) (s : State) (c : Cmd),
    let a := s.advance t
    (∀ peer : PeerJoin, ((s.ctx x).inflight.find? fun c => c.tag % 2048 == tag.toNat && c.wait == .pairJoin 1) = none →
      a.starting x tag.toNat 0x9001 = some c → s.dbg.level ≠ 2 → s.par .pairBoard ≠ 0 → s.pair.mode = .detached →
      (c.payload = [2, 0, 0, 0] → exec (.pairJoin t x tag peer) s
          = .next (({ a with pair := { s.pair with
              mode := .sole, role := 2, peerRst := true, detectAt := max s.time t, raising := 0xFF } } : State).await x c (.pairTick 2)))
      ∧ (c.payload = [1, 0, 0, 0] → peer.joined = false ∨ s.links.vxState ≠ .up →
          exec (.pairJoin t x tag peer) s = .next (a.await x c (.pairJoin 1)))
      ∧ (c.payload = [1, 0, 0, 0] → peer.joined = true → s.links.vxState = .up → padTo 16 peer.devId ≠ s.wantedPeer →
          ∃ s', exec (.pairJoin t x tag peer) s = .next s' ∧ s'.pair.mode = .detached ∧ s'.pair.key = s.pair.key
            ∧ s'.sec.draws = s.sec.draws + 2)
      ∧ (c.payload = [1, 0, 0, 0] → peer.joined = true → s.links.vxState = .up →
          let secret := Config.random s.sec.draws 48
          let own := Config.p384Public secret
          let sig := (a.modSec fun k => { k with draws := k.draws + 1 }).signIdentity (sha (joinText peer own))
          let u := (sig.2.verified 1).sendMessage .vx 0 (devId ++ padTo 97 identityPublic ++ padTo 97 own ++ sig.1)
          let known := peerProved peer own = true ∧ padTo 16 peer.devId = s.wantedPeer ∧ padTo 16 peer.peerId = devId
            ∧ s.sharesOwner peer.ownerHashes = true
          let alike := peer.revision = s.sec.otp.revision ∧ peer.fwVersion = s.fwVersion ∧ peer.memGib = s.mem.gib
            ∧ (s.modPair fun p => { p with mode := .paired }).budgetHolds = true
          (¬ known → exec (.pairJoin t x tag peer) s = .next (u.complete x c .authFail 4))
          ∧ (known → ¬ alike → exec (.pairJoin t x tag peer) s = .next (u.complete x c .incoherent 5))
          ∧ (known → alike → ∃ s', exec (.pairJoin t x tag peer) s = .next s'
            ∧ s' = (u.enterJoining peer (linkKey peer secret)).await x c (.pairJoin 2)
            ∧ s'.pair.mode = .joining ∧ s'.pair.role = s.joinRole peer ∧ s'.pair.peerId = padTo 16 peer.devId
            ∧ s'.pair.key = linkKey peer secret ∧ s'.sec.draws = s.sec.draws + 2
            ∧ s'.tick.nextFrame = max s.tick.nextFrame peer.nextFrame)))
    ∧ (∀ peer : PeerJoin, ((s.ctx x).inflight.find? fun c => c.tag % 2048 == tag.toNat && c.wait == .pairJoin 1) = none →
      a.starting x tag.toNat 0x9001 = some c →
      (s.dbg.level = 2 → exec (.pairJoin t x tag peer) s = .next (a.complete x c .notPermitted 1))
      ∧ (s.dbg.level ≠ 2 → c.payload.length ≠ 4 ∨ leAt c.payload 1 3 ≠ 0 ∨ leAt c.payload 0 1 = 0 ∨ 2 < leAt c.payload 0 1
          ∨ s.par .pairBoard = 0 ∨ (s.pair.mode ≠ .detached ∧ (s.pair.mode ≠ .sole ∨ leAt c.payload 0 1 ≠ 1)) →
        exec (.pairJoin t x tag peer) s = .next (a.complete x c .badParam 2)))
    ∧ (exec (.pairJoinTimeout t) s = .next (a.completeWhere fun _ c =>
        if c.wait == .pairJoin 1 && decide (c.fetched + s.par .pairJoinTmo * 1000000000 ≤ max s.time t) then some (.failedFault, 3)
        else none))
    ∧ (∀ sg : Nat, a.starting x tag.toNat 0x9002 = some c → c.payload ≠ [] →
        exec (.pairStatus t x tag sg) s = .next (a.complete x c .badParam))
    ∧ (∀ sg : Nat, a.starting x tag.toNat 0x9002 = some c → c.payload = [] → c.sgAddr ≠ 0 → s.sgInDevice x = false →
        (s.ctx x).busOff = false → a.pairRecord.length ≤ sg →
        exec (.pairStatus t x tag sg) s
          = .next (({ a with out := s.out ++ [.scatter x c.tag a.pairRecord] } : State).complete x c .done 64))
    ∧ (a.starting x tag.toNat 0x9003 = some c → s.pair.mode = .paired →
        (c.payload = [1, 0, 0, 0] → exec (.pairHandover t x tag) s = .next (a.await x c (.pairHandover 1)).handoverStep)
        ∧ (c.payload = [2, 0, 0, 0] → exec (.pairHandover t x tag) s = .next (a.await x c (.pairHandover 2)).handoverStep))

/-- Heartbeats, the alive wire, the release of the peer's reset and the handover message, which in a join names the tiles that this
device drives afterwards (Table 11.5 step 6). That the handover message also carries the request of TAKE_ALL is the model's (log 76),
and so are the layouts of these messages (log 107). -/
def Obligations.HeartbeatsAndPins : Prop :=
  ∀ (t : Time) (s : State),
    (s.pair.mode = .paired → (∀ k : Time, s.pair.sentAt = some k → k + 100000 ≤ max s.time t) → exec (.heartbeatSend t) s
        = .next (((s.advance t).sendHeartbeat false 0).modPair fun p =>
            { p with sentAt := some (max s.time t), alive := true }).handoverStep)
    ∧ (∀ k : Time, s.pair.sentAt = some k → max s.time t < k + 100000 → exec (.heartbeatSend t) s = .next (s.advance t))
    ∧ (∀ k : Time, s.pair.sentAt = some k →
        exec (.aliveWatchdogExpiry t) s = .next (if k + 200000 ≤ max s.time t then
          { s.advance t with pair := { s.pair with alive := false } } else s.advance t))
    ∧ (∀ h : Heartbeat, (h.tagOk = false → ∃ s', exec (.heartbeatReceived t h) s = .next s' ∧ s'.pair = s.pair ∧ s'.tick = s.tick)
        ∧ (h.tagOk = true → exec (.heartbeatReceived t h) s = .next { s.advance t with pair := { s.pair with
            rcvdAt := some (max s.time t), beat := some h, beatOff := h.frame != s.tick.frameNum, peerD2 := h.stage == 2
            leaveCause := if h.leaving then h.cause else s.pair.leaveCause } }))
    ∧ (s.pair.peerRst = true → s.pair.detectAt + 1000000 ≤ max s.time t →
        exec (.peerRstRelease t) s = .next { s.advance t with pair := { s.pair with peerRst := false } })
    ∧ (s.pair.mode = .paired →
        (∀ tiles : BitVec 8, exec (.handoverMessage t ⟨true, .given tiles⟩) s
          = .next { s.advance t with pair := { s.pair with raising := tiles &&& ~~~ s.pair.own, detectAt := max s.time t } })
        ∧ exec (.handoverMessage t ⟨true, .asked⟩) s = .next { s.advance t with pair := { s.pair with giving := true } })
    ∧ (s.pair.mode = .joining → ∀ tiles : BitVec 8, exec (.handoverMessage t ⟨true, .given tiles⟩) s
        = .next { s.advance t with pair := { s.pair with raising := tiles, detectAt := max s.time t } })
    ∧ (∀ m : HandoverMsg, ∃ s', exec (.handoverMessage t ⟨false, m⟩) s = .next s' ∧ s'.pair = s.pair ∧ s'.ctxs = s.ctxs)

/-- Detection takes the peer's tiles: at once at a LEAVING heartbeat, without heartbeats and alive edges after 150 µs for a LEAD and
250 µs for a PARTNER; a PARTNER whose peer's wire still moves withdraws after 450 µs. TOWN rises 10 µs later. A join ends in a frame
blank, once the PARTNER's bundle is active (what counts as a blank is the model's reading, log 119). -/
def Obligations.DetectionTakesThePeersTiles : Prop :=
  ∀ (t edge : Time) (s : State), s.pair.mode = .paired →
    (∀ h : Heartbeat, s.pair.beat = some h → h.leaving = true → ∃ s', exec (.pairDetectionSample t edge) s = .next s'
        ∧ s'.pair.mode = .sole ∧ s'.pair.peerRst = true ∧ s'.pair.detectAt = max s.time t ∧ s'.pair.raising = ~~~ s.pair.own
        ∧ s'.pair.detection = 1 ∧ s'.pair.failovers = satAdd 0xFFFF s.pair.failovers 1
        ∧ s'.frames.map (·.num) = s.frames.map (·.num))
    ∧ ((∀ h : Heartbeat, s.pair.beat = some h → h.leaving = false) →
        (edge + 50000 ≤ max s.time t →
          (∀ r : Time, s.pair.rcvdAt = some r → r + (if s.pair.role = 0 then 150000 else 250000) ≤ max s.time t) → ∃ s',
            exec (.pairDetectionSample t edge) s = .next s'
            ∧ s'.pair.mode = .sole ∧ s'.pair.detection = 2 ∧ s'.pair.raising = ~~~ s.pair.own
            ∧ s'.frames.map (·.num) = s.frames.map (·.num))
        ∧ (max s.time t < edge + 50000 → (∀ r : Time, s.pair.rcvdAt = some r → r + 450000 ≤ max s.time t) → ∃ s',
            exec (.pairDetectionSample t edge) s = .next s' ∧ (s.pair.role = 0 → s'.pair.mode = .sole ∧ s'.pair.detection = 3)
              ∧ (s.pair.role ≠ 0 → s'.pair.mode = .detached ∧ s'.pair.own = 0 ∧ s'.pair.detection = 3))
        ∧ (max s.time t < edge + 50000 → s.pair.role = 0 ∨ s.pair.beatOff = false →
            (∃ r : Time, s.pair.rcvdAt = some r ∧ max s.time t < r + 450000) →
            exec (.pairDetectionSample t edge) s = .next { s.advance t with pair := { s.pair with aliveFault := false } }))
    ∧ ∀ u : State, u.pair.raising ≠ 0 →
        (u.pair.mode = .sole → u.pair.detectAt + 10000 ≤ max u.time t →
          ∃ s', exec (.pairTownRaise t) u = .next s' ∧ s'.pair.own = u.pair.own ||| u.pair.raising ∧ s'.pair.raising = 0
            ∧ s'.pair.mode = .sole ∧ s'.frames = u.frames ∧ s'.mem = u.mem)
        ∧ (u.pair.mode = .joining → u.pair.detectAt + 5000 ≤ max u.time t → (u.advance t).joinReady = true →
          ∃ s', exec (.pairTownRaise t) u = .next s' ∧ s'.pair.mode = .paired ∧ s'.pair.raising = 0
            ∧ s'.pair.own = if u.pair.role = 0 then 0x0F else u.pair.raising)

/-- What the peer sends: its tick, rows, tile state records and drift mirror. Each acts on its own part of the state, a mirror of SHO
with the record that follows it, which also ends the requests that it shows done; a message that fails its tag acts on nothing. An end
of window of all ones in a record stands for a window without an end (the model's choice, log 23), and what a mirror holds before its
record comes is installed with it (log 49); snapshots are installed as they come (log 77). -/
def Obligations.PeerMessagesInstallTheirPart : Prop :=
  ∀ (t : Time) (s : State), s.pair.mode = .paired →
    let a := s.advance t
    (∀ m : TickMsg, s.pair.role = 1 → s.tick.state ≠ .internal → m.tagOk = true → exec (.pairTickMessage t m) s
        = .next ((({ a with
            pair := { s.pair with peerD2 := m.d2 }
            tick := { s.tick with
              frameNum := m.frame, nextFrame := if m.numbered then m.frame else s.tick.nextFrame } } : State)).frameTick
              m.ts (m.tickState == 2) (m.tickState == 3) (some (m.numbered, m.grants))))
    ∧ (∀ m : TickMsg, m.tagOk = false → ∃ s', exec (.pairTickMessage t m) s = .next s' ∧ s'.tick = s.tick ∧ s'.frames = s.frames)
    ∧ (∀ (hdr : Bytes) (words : List (BitVec 64)) (tile : Tile) (f : Frame), leAt hdr 6 1 = tile.val → s.reading = some f →
        let y := leAt hdr 8 2
        f.num = leAt hdr 0 6 → f.paired = true → (f.tile tile).own = false → s.firstRow tile ≤ y →
        exec (.rowExchange t ⟨true, hdr⟩ words) s = .next ((a.modReading tile fun k => { k with
          peer := k.peer ++ [exchangedRow y words], arrived := k.arrived ++ [y - s.firstRow tile]
          entered := k.entered ++ [(y, max s.time t)] }).perfEvent 15 0x13))
    ∧ (∀ (tile : Tile) (rec : Bytes), s.owns tile = false → tile.val < s.drift.length →
        let found := s.pair.mirrors.find? fun m => m.tile == tile.val && m.cands.isSome
        ∃ s', exec (.tileStateRecord t tile ⟨true, rec⟩) s = .next s'
          ∧ (∀ (p : Param) (i : Nat), i < p.row.count → p ≠ .hostEvtLost → p ≠ .sampleLostCnt → s'.par p i = s.par p i)
          ∧ (∀ u : Tile, u ≠ tile → s'.dr u = s.dr u)
          ∧ (found = none → s'.mem = s.mem
            ∧ ∃ force : Bool, s'.dr tile = { (s.dr tile).install (padTo 64 rec) with force })
          ∧ ∀ m, found = some m → (s'.dr tile).candCnt = leAt (m.cands.getD []) 6 2
            ∧ s'.pair.mirrorAge = s.pair.mirrorAge.set tile.val 0
            ∧ s'.pair.mirrorOpen = s.pair.mirrorOpen &&& ~~~ BitVec.ofNat 8 (2 ^ tile.val))
    ∧ (∀ (tile : Tile) (pix : Nat) (recs : List Word) (cands : Bytes) (last : Bool), s.owns tile = false →
        exec (.driftMirror t tile ⟨true, .sho pix recs cands last⟩) s
          = .next (a.modPair fun p => p.addMirror tile.val pix recs (if last then some cands else none))
        ∧ exec (.driftMirror t tile ⟨true, .snapshot pix recs⟩) s = .next (a.mirrorRecords tile pix recs))

/-- Forwarded replies, events and commands, the LEAD's shared values and commits, and its bundle. A PARTNER keeps the shared values of
the LEAD's commits in the order of its fetches, and answers anew whenever what its masks rest on has changed (the model's protocol, log
117). The row that carries forwarded commands is the model's choice (log 47), and so is the course of a bundle transfer (log 71). -/
def Obligations.ForwardingAndSharing : Prop :=
  ∀ (t : Time) (x : Ctx) (s : State),
    let a := s.advance t
    (∀ bytes : Bytes, exec (.forwardedReply t true x (.event bytes)) s = .next (a.eventAt x (leAt bytes 0 2) (sliceB 24 40 bytes)
        { time := leAt bytes 8 8, frame := leAt bytes 16 6 }))
    ∧ (∀ (bytes : Bytes) (c : Cmd), (replyOf bytes).early = false → c.sampled = false →
        ((s.ctx x).inflight.filter fun d => d.tag % 2048 == (replyOf bytes).tag % 2048 && d.wait == .forwarded).head? = some c →
        exec (.forwardedReply t true x (.reply bytes)) s = .next ((a.endCmd x c).replyTo x (replyOf bytes)).handoverStep)
    ∧ (∀ header payload : Bytes, s.isAuth x = true → s.bindingOf x = 11 →
        exec (.forwardedReply t true x (.command header payload)) s = .next (a.fetchCommand x (parseHeader header) payload true)
        ∧ exec (.forwardedReply t true x .reset) s = .next (a.resetCtx x .command none).2)
    ∧ (∀ m : FwdMsg, ∃ s', exec (.forwardedReply t false x m) s = .next s' ∧ s'.ctxs = s.ctxs ∧ s'.gens = s.gens)
    ∧ (s.pair.mode = .paired → s.pair.role = 1 → ∀ (id : Nat) (entries : List (Nat × Word)),
        let shared := entries.filter fun e => sharedId e.1
        exec (.pairParamSync t true (.commit id entries)) s
          = .next (a.modPair fun p => { p with sync :=
              (p.sync.filter fun e => e.1 < id) ++ [(id, false, shared)] ++ p.sync.filter fun e => id < e.1 }).syncVerdicts
        ∧ (s.pair.sync = [] → exec (.pairParamSync t true (.commit id entries)) s
          = .next ((a.modPair fun p => { p with sync := [(id, false, shared)] }).pairSend
              .paramSync (3 :: leBytes 8 id ++ leBytes 4 (s.coherence shared).mask)))
        ∧ exec (.pairParamSync t true (.decide id false true)) s
          = .next (a.modPair fun p => { p with sync := p.sync.filter fun e => e.1 != id }).syncVerdicts
        ∧ exec (.pairParamSync t true (.decide id true true)) s
          = .next (a.modPair fun p => { p with sync := p.sync.map fun e => if e.1 = id then (e.1, true, e.2.2) else e })
        ∧ (shared = [] → exec (.pairParamSync t true (.values entries)) s = .next (a.syncValues []).syncVerdicts))
    ∧ (s.pair.mode = .paired → s.pair.role = 0 → ∀ id mask : Nat, exec (.pairParamSync t true (.verdict id mask)) s
        = .next (a.modPair fun p => { p with verdicts := (p.verdicts.filter fun v => v.1 != id) ++ [(id, mask)] }))
    ∧ (s.pair.mode = .paired → keysRise none s.gens = true → ∀ tag g : Nat, ∃ s',
        exec (.pairParamSync t true (.gens [(tag, g)])) s = .next s' ∧ s'.genOf tag = g % 32 ∧ (∀ n : Nat, n ≠ tag → s'.genOf n = s.genOf n)
          ∧ s'.ctxs = s.ctxs ∧ s'.regs = s.regs)
    ∧ (∀ h : Bytes, s.pair.mode = .paired → s.pair.role = 1 → ∃ s',
        exec (.pairBundleTransfer t true (.header h)) s = .next s' ∧ s'.bundle = s.bundle ∧ s'.session = s.session
          ∧ s'.pair.transfer = (match s.hdrRefusal s.pair.peerId h with
            | none => some (newSession 0 h (max s.time t))
            | some _ => none))
/-! Power, reset, boot and clocks (chapter 12). -/

/-- A low pulse under 1 µs on PORST_N or a rail does nothing; from 1 µs on, and at a loss of power, the device is at its reset values but
for what survives; the reset causes differ. A self reset that is due stops the streams and waits for the end of a running NV commit
(R383); after it the device is in the boot ROM with its cause, the time base, the frame numbers and the locks of the NV store go on (R24,
R385, log 106). Over the Reset column the locks of the NV store outlast a self reset (log 134), and the preloaded boundary cells PORST_N
(log 132): both are the model's readings. A running transaction may exist in full after a reset (R380). The cause of the frames that a
self reset ends is free (log 24), the input pins keep their levels (log 4), memory reads as 0 afterwards (log 3), and that a brown-out
leaves the device in reset until PORST_N rises is the model's reading (log 34). -/
def Obligations.ResetsAndSelfResets : Prop :=
  (∀ (t : Time) (rail : Rail) (n : Nat) (s : State), s.boot ≠ .unpowered →
     (n < 1000 → exec (.porstNAssert t n) s = .next (s.advance t) ∧ exec (.brownOut t rail n) s = .next (s.advance t))
       ∧ ∃ r : State,
         (1000 ≤ n → exec (.porstNAssert t n) s = .next r
           ∧ exec (.brownOut t rail n) s = .next { r with clk := { r.clk with cause := 3 } })
         ∧ exec (.powerLoss t) s = .next { r with boot := .unpowered, pins := { r.pins with highZ := true }, dbg := Debug.reset }
         ∧ r.boot = .inReset ∧ r.clk.cause = 0 ∧ r.time = max s.time t ∧ r.regs = [] ∧ r.mem.cells = [] ∧ r.frames = []
         ∧ r.ctxs = State.reset.ctxs ∧ r.gens = [] ∧ r.tick = Ticks.reset ∧ r.hk = Hk.reset ∧ r.thm = Thermal.reset
         ∧ r.session = none ∧ r.bundle = none ∧ r.links = Links.reset ∧ r.pair = Pair.reset
         ∧ r.dbg = { Debug.reset with preload := s.dbg.preload }
         ∧ r.aux = Aux.reset ∧ r.pegs = State.reset.pegs ∧ r.outs = State.reset.outs
         ∧ r.nv.buffer = [] ∧ r.nv.lock = 0 ∧ r.nv.fails = List.replicate 8 0
         ∧ (s.nv.running = none → r.sec.otp = s.sec.otp ∧ r.sec.flash = s.sec.flash ∧ r.nv.pages = s.nv.pages ∧ r.nv.txn = s.nv.txn))
    ∧ (∀ (t : Time) (s : State),
          (∀ a : Time, s.sec.restartAt = some a → a ≤ max s.time t →
            (s.nv.running = none → s.nv.buffer = [] →
              ∃ s', exec (.fwRestartDelay t) s = .next s' ∧ s'.boot = .rom ∧ s'.clk.cause = 1 ∧ s'.time = max s.time t
                ∧ s'.clk.refsel = s.clk.refsel ∧ s'.frames = [] ∧ s'.mem.cells = [] ∧ s'.nv.pages = s.nv.pages
                ∧ s'.nv.lock = s.nv.lock ∧ s'.nv.fails = List.replicate 8 0 ∧ s'.clk.loss = 0 ∧ s'.tick.nextFrame = s.tick.nextFrame)
            ∧ (s.nv.running ≠ none → ∃ s', exec (.fwRestartDelay t) s = .next s' ∧ s'.sec.resetDue = some 1 ∧ s'.boot = s.boot
                ∧ s'.frames = [] ∧ s'.nv.running = s.nv.running ∧ ∀ x : Ctx, (s'.ctx x).mv.started = false))
          ∧ (s.boot = .running ∨ s.boot = .basecamp → s.unconfirmed = true → s.sec.resetDue = none →
              s.sec.bootedAt + s.par .secFwConfirmTime * 1000000000 ≤ max s.time t → s.nv.running = none → s.nv.buffer = [] →
              ∃ s', exec (.fwConfirmTimeout t) s = .next s' ∧ s'.boot = .rom ∧ s'.clk.cause = 2 ∧ s'.time = max s.time t
                ∧ s'.clk.refsel = s.clk.refsel ∧ s'.frames = [] ∧ s'.mem.cells = [] ∧ s'.nv.pages = s.nv.pages
                ∧ s'.nv.lock = s.nv.lock ∧ s'.nv.fails = List.replicate 8 0 ∧ s'.clk.loss = 0 ∧ s'.tick.nextFrame = s.tick.nextFrame)
          ∧ (∀ n retired fails cause : Nat, s.nv.running = some n →
              let e := (s.advance t).transactionEnds n retired fails
              e.sec.resetDue = some cause → e.nv.running = none → e.nv.buffer = [] → ∃ s',
                exec (.nvCommitDone t retired fails) s = .next s' ∧ s'.boot = .rom ∧ s'.clk.cause = cause))

/-- PORST_N release: straps sampled, the time base at 0, the boot ROM runs, or stops where the root key fails. The crystal check and
the first lock of a PLL follow. REFCLK_IN is compared without a wait (the model's reading, log 35); PLLs lock anew after every reset
(log 82). -/
def Obligations.PorstReleaseAndCrystalCheck : Prop :=
  (∀ (t : Time) (o r : Fin 4) (ok : Bool) (s : State), s.boot = .inReset ∨ s.boot = .unpowered →
     ∃ s', exec (.porstNRelease t o r ok) s = .next s' ∧ s'.time = 0 ∧ s'.boot = (if ok then .rom else .dead)
       ∧ s'.clk.oscSettle = o.val ∧ s'.clk.refsel = r.val ∧ s'.clk.rcTrim = s.sec.otp.rcTrim
       ∧ (r = 0 → s'.clk.crystal = .settling 1) ∧ (r = 1 → s'.clk.crystal = .comparing 1)
       ∧ s'.hk.on = true ∧ s'.links.gln = .training ∧ s'.mem = s.mem)
    ∧ (∀ (t : Time) (s : State),
          (∀ n : Nat, s.clk.crystal = .settling n →
            (s.clk.crystalAt + settleTime s.clk.oscSettle ≤ max s.time t → exec (.oscSettleExpiry t) s
              = .next { s.advance t with clk := { s.clk with crystal := .comparing n, crystalAt := max s.time t } })
            ∧ (max s.time t < s.clk.crystalAt + settleTime s.clk.oscSettle → exec (.oscSettleExpiry t) s = .next (s.advance t)))
          ∧ (∀ n kHz : Nat, s.clk.refsel = 0 → s.clk.crystal = .comparing n → s.clk.crystalAt + 100000 ≤ max s.time t →
              (22500 ≤ kHz ∧ kHz ≤ 27500 →
                exec (.crystalCheckDone t kHz) s = .next { s.advance t with clk := { s.clk with crystal := .accepted } })
              ∧ (kHz < 22500 ∨ 27500 < kHz →
                  (n = 1 → exec (.crystalCheckDone t kHz) s
                    = .next { s.advance t with clk := { s.clk with crystal := .settling 2, crystalAt := max s.time t } })
                  ∧ (n ≠ 1 → exec (.crystalCheckDone t kHz) s = .next { s.advance t with
                      clk := { s.clk with crystal := .failed, pllA := .coasting (max s.time t), loss := s.clk.loss ||| 1 } })))
          ∧ (∀ p : Pll, p ≠ .a → s.awake = true → s.pll p = .off →
              exec (.pllLocked t p) s = .next ((s.advance t).setPll p .locked))
          ∧ (s.awake = true → s.clk.pllA = .off → s.clk.refsel = 0 → s.clk.crystal = .accepted →
              exec (.pllLocked t .a) s = .next { s.advance t with
                clk := { s.clk with pllA := .locked, srcA := 0, srcNext := 0, trimAt := max s.time t } }))


/-- Training at boot: the guyline, then the memory; a failure leaves the device in the basecamp image. The chosen image runs and ticks
start; with none left the basecamp image runs; external memory is fresh. Only 8, 12 and 16 GiB are supported (R294). Where the image
stands in memory (log 115), the message with the channels' trim that SC sends to the F-die (log 107) and that Vexnex trains once the image
runs (log 30) are the model's choices; in basecamp interrupted work is finished as well (log 86), and the first tick comes TICK_PERIOD
after the image starts (log 32). -/
def Obligations.TrainingAndBootImage : Prop :=
  (∀ (t : Time) (s : State), s.boot = .rom →
     (∀ fc cf : Nat, s.clk.glnTrained = false →
       (8 ≤ fc ∧ 2 ≤ cf → ∃ s', exec (.guylineTrainDone t fc cf) s = .next s' ∧ s'.links.gln = .up ∧ s'.clk.glnTrained = true
         ∧ s'.boot = .rom)
       ∧ (fc < 8 ∨ cf < 2 → exec (.guylineTrainDone t fc cf) s
           = .next { (s.advance t).finishOtp with boot := .basecamp, links := { s.links with gln := .down } }
         ∧ (s.sec.otp.transfer = none → (s.advance t).finishOtp = s.advance t)))
     ∧ ∀ (gib : Nat) (chans : List (ChanTrain × Nat)), s.clk.glnTrained = true → s.clk.memTrained = false → chans.length = 8 →
         ((gib = 8 ∨ gib = 12 ∨ gib = 16) → (∀ c ∈ chans, c.1 ≠ .failed) → ∃ s', exec (.memoryTrainDone t gib true chans) s = .next s'
           ∧ s'.boot = .rom
           ∧ s'.clk.memTrained = true ∧ s'.mem.gib = gib ∧ s'.mem.cells = s.mem.cells)
         ∧ (∀ flash : Bool, (∃ c ∈ chans, c.1 = .failed) ∨ flash = false ∨ (gib ≠ 8 ∧ gib ≠ 12 ∧ gib ≠ 16) → ∃ s',
           exec (.memoryTrainDone t gib flash chans) s = .next s'
           ∧ s'.boot = .basecamp
           ∧ ∀ m : Nat, ∀ c : ChanTrain × Nat, chans[m]? = some c → s'.mem.chan[m]? = some (chanCode c.1, c.2 % 32)))
    ∧ (∀ (t : Time) (s : State), s.boot = .rom → s.clk.memTrained = true →
          let fresh : State := { (s.advance t).modSec fun k => { k with bootDraw := some k.draws, draws := k.draws + 3 } with
            mem := { s.mem with cells := [] } }
          let sel := (fresh.nvFetchAll [8, fwPage, 10, 16]).finishWork.selectImage
          (sel.1 = none → exec (.bootImageStart t) s = .next { sel.2 with boot := .basecamp })
            ∧ ∀ k : Nat, sel.1 = some k → ∃ s', exec (.bootImageStart t) s = .next s' ∧ s'.boot = .running
              ∧ s'.sec.runningSlot = some k ∧ s'.tick.running = true
              ∧ s'.tick.next = max s.time t + 10 * sel.2.par .tickPeriod
              ∧ s'.links.vxState = (if sel.2.par .pairBoard = 1 then .training else .down)
              ∧ s'.mem.cells = putCells sel.2.mem.cells 0 (sel.2.image k) ∧ s'.sec.otp = sel.2.sec.otp
              ∧ s'.sec.trial = (if sel.2.fwState k = 4 then some k else none)
              ∧ ∃ u : State, u.boot = .running ∧ u.links.cf = sel.2.links.cf ∧ u.links.gln = sel.2.links.gln
                ∧ s' = (u.sendAcross .cf (.adcTrim sel.2.sec.otp.trim)).trimEvents)


/-- PFW_N: asserted after 1 µs low, released after 100 ms high; frames, memory and tiles carry on. A function level reset, a hot reset
and the PERST input reset contexts and leave the device itself running. What a class-0 event does at the C-die follows at its first
copy (log 26); PCIE_PERST_N low resets no context (log 82); the length of an assertion is the model's reading (log 33). -/
def Obligations.PowerFailAndPcieResets : Prop :=
  (∀ (t : Time) (n : Nat) (s : State), s.awake = true →
     (s.clk.pfw = false →
       (n < 1000 → exec (.pfwNAssert t n) s = .next (s.advance t))
       ∧ (1000 ≤ n → ∃ s', exec (.pfwNAssert t n) s = .next s' ∧ s'.clk.pfw = true ∧ s'.clk.pfwSeen = true
         ∧ s'.clk.pfwAt = max s.time t ∧ s'.frames = s.frames ∧ s'.tiles = s.tiles ∧ s'.mem = s.mem ∧ s'.tick = s.tick))
     ∧ (s.clk.pfw = true →
       (n < 100000000 → exec (.pfwNRelease t n) s = .next (s.advance t))
       ∧ (100000000 ≤ n → ∃ s', exec (.pfwNRelease t n) s = .next s' ∧ s'.clk.pfw = false ∧ s'.clk.pfwSeen = s.clk.pfwSeen
         ∧ s'.frames = s.frames ∧ s'.tiles = s.tiles ∧ s'.mem = s.mem ∧ s'.nv = s.nv)))
    ∧ (∀ (t : Time) (s : State), s.hostUp = true →
          (∀ fn : Fin 8, exec (.functionLevelReset t fn) s
            = .next ((allCtx.filter fun x => if fn = 0 then s.onPcie x else s.bindingOf x == fn.val + 1).foldl
                (fun s x => (s.resetCtx x .flr none).2) (s.advance t)))
          ∧ (exec (.hotReset t) s
              = .next ((allCtx.filter fun x => s.onPcie x).foldl (fun s x => (s.resetCtx x .hot none).2) (s.advance t)))
          ∧ (exec (.pciePerstNChange t false) s = .next { s.advance t with clk := { s.clk with perst := false } })
          ∧ ∃ s', exec (.pciePerstNChange t true) s = .next s' ∧ s'.clk.perst = true ∧ s'.boot = s.boot ∧ s'.mem = s.mem)


/-- A lost reference coasts its PLLs: that of PLL_C and PLL_M stops the streams at once, that of PLL_A sends its class-0 event. A
returned reference relocks them within 40 µs (the model's reading of the free time, log 60) and ramps, and CLK_LOSS stays set. The RC
trim code moves one step beyond 0.01%, the trimmed bit sets within 0.1% and clears beyond 0.15%; the error is rounded as log 99 says,
and the direction of a step is free (log 83). -/
def Obligations.ReferenceLossAndRcTrim : Prop :=
  (∀ (t : Time) (s : State),
     (s.clk.pllC = .locked → s.clk.pllM = .locked → ∃ s', exec (.referenceLost t .pcie) s = .next s'
         ∧ s'.clk.pllC = .coasting (max s.time t) ∧ s'.clk.pllM = .coasting (max s.time t) ∧ s'.clk.pllA = s.clk.pllA
         ∧ s'.clk.loss = s.clk.loss ||| 6 ∧ s'.frames = [] ∧ (∀ x : Ctx, (s'.ctx x).mv.started = false)
         ∧ ∀ o ∈ s'.outs, o.stream.started = false)
     ∧ (s.clk.pllA = .locked → s.clk.srcA ≠ 2 → ∃ s', exec (.referenceLost t .pllA) s = .next s'
         ∧ s'.clk.pllA = .coasting (max s.time t) ∧ s'.clk.srcA = 2 ∧ s'.clk.loss = s.clk.loss ||| 1
         ∧ s'.links.raised = s.links.raised ++ [(.fc, s.links.numFC, 5, 0, 0)] ∧ s'.mem = s.mem)
     ∧ (∀ since : Time, s.clk.pllA = .coasting since → s.clk.crystal ≠ .failed →
         ∃ s', exec (.referenceRestored t .pllA) s = .next s' ∧ s'.clk.loss = s.clk.loss
           ∧ (∃ k : Nat, k ≤ 40000 ∧ s'.clk.pllA = .switching (max s.time t) k (some ((max s.time t - since) / 1000)))
           ∧ s'.clk.srcNext = s.par .clkASrc)
     ∧ (∀ since : Time, s.clk.pllC = .coasting since → s.clk.pllM = .coasting since →
         ∃ s', exec (.referenceRestored t .pcie) s = .next s' ∧ s'.clk.loss = s.clk.loss ∧ ∃ j k : Nat, j ≤ 40000 ∧ k ≤ 40000
           ∧ s'.clk.pllC = .switching (max s.time t) j (some ((max s.time t - since) / 1000))
           ∧ s'.clk.pllM = .switching (max s.time t) k (some ((max s.time t - since) / 1000)))
     ∧ (∀ (since : Time) (k : Nat) (c : Option Nat),
         (s.clk.pllA = .switching since k c → since + rampLength k c.isSome ≤ max s.time t →
           ∃ s', exec (.clockSwitchDone t .a) s = .next s' ∧ s'.clk.pllA = .locked ∧ s'.clk.srcA = s.clk.srcNext
             ∧ s'.frames = s.frames)
         ∧ (s.clk.pllC = .switching since k c → since + rampLength k c.isSome ≤ max s.time t →
           ∃ s', exec (.clockSwitchDone t .c) s = .next s' ∧ s'.clk.pllC = .locked ∧ s'.clk.srcA = s.clk.srcA)
         ∧ (s.clk.pllA = .switching since k c → max s.time t < since + rampLength k c.isSome →
           exec (.clockSwitchDone t .a) s = .next (s.advance t))))
    ∧ (∀ (t : Time) (s : State),
          let a := s.advance t
          (s.par .clkRcTrimSrc = 0 → s.clk.pllA = .locked → s.clk.srcA ≠ 2 → s.clk.trimAt + 100000000 ≤ max s.time t →
            a.trimDue = some 1000000)
          ∧ (s.par .clkRcTrimSrc = 1 → s.par .tickSrc = 1 → s.tick.fsCount = 16 → a.trimDue = some (16 * s.par .fsyncNomPeriod))
          ∧ (∀ count : Nat, a.trimDue = none → exec (.rcTrimMeasurement t count) s = .next a)
          ∧ ∀ count due : Nat, s.awake = true → a.trimDue = some due →
            let err := ((count : Int) - due).natAbs
            ∃ s', exec (.rcTrimMeasurement t count) s = .next s' ∧ s'.clk.rcErr = rcError count due ∧ s'.clk.trimAt = max s.time t
              ∧ (10000 * err ≤ due → s'.clk.rcTrim = s.clk.rcTrim)
              ∧ (due < 10000 * err → 0 < s.clk.rcTrim → s.clk.rcTrim < 1023 →
                s'.clk.rcTrim + 1 = s.clk.rcTrim ∨ s'.clk.rcTrim = s.clk.rcTrim + 1)
              ∧ (1000 * err ≤ due → s'.clk.rcTrimmed = true) ∧ (3 * due < 2000 * err → s'.clk.rcTrimmed = false)
              ∧ (due < 1000 * err → 2000 * err ≤ 3 * due → s'.clk.rcTrimmed = s.clk.rcTrimmed))
/-! The NV store, the service ledger and the peg ports (chapter 13). -/

/-- NV_READ, NV_WRITE and NV_COMMIT. clean: the page of the password store passes its check, so that no event of R381 is raised. What a
read fetches crosses the guyline, and so do the commands (R43, log 107). Where NV_COMMIT's own recovery record stands among the writes
that it commits is the model's choice (log 129), and so is the place of the passwords (log 5). -/
def Obligations.NvCommands : Prop :=
  ∀ (t : Time) (x : Ctx) (tag : BitVec 11) (s : State) (c : Cmd), s.nvUp = true →
    let a := s.advance t
    let clean (r : Nat) : Prop := (s.nvLook (240 + r)).recovered = false
    (∀ sg r n page : Nat, a.starting x tag.toNat 0x6001 = some c → c.payload.length = 20 → leAt c.payload 0 1 = r →
      leAt c.payload 1 1 = n → leAt c.payload 2 2 = page → 2 ≤ r → r ≤ 7 → 1 ≤ n → n ≤ 16 → page + n ≤ 512 →
      (s.nvLocked r = true → exec (.nvRead t x tag sg) s = .next (a.complete x c .locked))
      ∧ (s.nvLocked r = false → s.password r false = noPassword → clean r → s.nvBusy (regionBase r + page) n = true →
          exec (.nvRead t x tag sg) s = .next (a.await x c (.nvRead sg)))
      ∧ (s.nvLocked r = false → s.password r false = noPassword → clean r → s.nv.running = none → c.sgAddr ≠ 0 →
          s.sgInDevice x = false → (s.ctx x).busOff = false → 256 * n ≤ sg → (∀ i : Nat, i < n →
            (s.nvLook (regionBase r + page + i)).recovered = false) →
          let sent := (List.range n).foldl
            (fun u i => u.sendAcross .fc (.nvData (regionBase r + page + i) 0 (s.nvLook (regionBase r + page + i)).data))
            (a.sendAcross .cf (.nvCommand c.opcode (regionBase r + page) 0 (256 * n)))
          exec (.nvRead t x tag sg) s = .next (({ sent with out := s.out ++ [.scatter x c.tag
            ((List.range n).flatMap fun i => (s.nvLook (regionBase r + page + i)).data)] } : State).complete x c .done n)))
    ∧ (∀ r len page off : Nat, a.starting x tag.toNat 0x6002 = some c → c.payload.length = 24 + len → leAt c.payload 0 1 = 0 →
        leAt c.payload 1 1 = r → leAt c.payload 2 2 = page → leAt c.payload 4 1 = off → leAt c.payload 5 1 = 0 →
        leAt c.payload 6 2 = len → 2 ≤ r → r ≤ 7 → 1 ≤ len → len ≤ 4096 → page * 256 + off + len ≤ 512 * 256 →
        (80 ≤ s.nv.spares.length → s.nvLocked r = false → s.password r true = noPassword → clean r → exec (.nvWrite t x tag []) s
          = .next (a.persist x c (splitPages (regionBase r + page) off (c.payload.drop 24) 18) false none).nvSettle)
        ∧ (s.nvLocked r = false → s.nv.spares.length < 80 → exec (.nvWrite t x tag []) s = .next (a.complete x c .nvFull).nvSettle))
    ∧ (a.starting x tag.toNat 0x6003 = some c → c.payload = [] →
        let idle : Prop := s.nv.running = none ∧ s.nv.buffer = [] ∧ s.nv.waiting = [] ∧ s.nvOlder c.order = false
        (idle → exec (.nvCommit t x tag) s
          = .next ((a.sendAcross .cf (.nvCommand c.opcode 0 0 0)).complete x c .done (s.nv.txn % 2 ^ 32)))
        ∧ (¬ idle →
          let b := (a.await x c (.nvQueued none)).nvSubmit { ups := [], now := true, owner := some (x, c.tag % 2048) }
          exec (.nvCommit t x tag) s = .next (if b.nvOlder c.order then b.nvStart else b)))
    ∧ (a.starting x tag.toNat 0x6003 = some c → c.payload ≠ [] → exec (.nvCommit t x tag) s = .next (a.complete x c .badParam))

/-- NV_UNLOCK clears the lock and the failure count of each region in the mask; it changes no password and journals nothing. -/
def Obligations.NvUnlockClearsLocksOnly : Prop :=
  ∀ (t : Time) (x : Ctx) (tag : BitVec 11) (s : State) (c : Cmd) (mask : Nat), s.nvUp = true → s.roleOf x = 1 →
    (s.advance t).starting x tag.toNat 0x6004 = some c → c.payload.length = 4 → leAt c.payload 0 1 = mask → leAt c.payload 1 3 = 0 →
    ∃ s', exec (.nvUnlock t x tag) s = .next s' ∧ s'.nv.lock = s.nv.lock &&& ~~~(BitVec.ofNat 8 mask)
      ∧ (∀ r : Nat, s'.nv.fails.getD r 0 = if bitOf mask r then 0 else s.nv.fails.getD r 0)
      ∧ (∀ (r : Nat) (w : Bool), s'.password r w = s.password r w)
      ∧ s'.nv = { s.nv with lock := s'.nv.lock, fails := s'.nv.fails }

/-- A commit starts on its own after NV_AUTOCOMMIT, and it ends whole or not at all. An abandoned one returns the good spares that it
has written to the pool, with their writes counted (R371, R382); how far it came is free (log 130), and the spares that fail are the
first ones taken (log 65). -/
def Obligations.CommitsAreWholeOrAbsent : Prop :=
  ∀ (t : Time) (s : State),
    (∀ since : Time, s.nv.firstAt = some since → since + s.par .nvAutocommit * 1000000 ≤ max s.time t → s.nv.running = none →
      s.nv.buffer ≠ [] → exec (.nvAutocommitExpiry t) s
        = .next { s.advance t with nv := { s.nv with running := some (s.nv.last + 1), last := s.nv.last + 1 } })
    ∧ ∀ n retired recordFails : Nat, s.nv.running = some n → ∃ s', exec (.nvCommitDone t retired recordFails) s = .next s'
        ∧ (5 ≤ retired ∨ 2 ≤ recordFails → s'.nv.pages = s.nv.pages ∧ s'.nv.txn = s.nv.txn)
        ∧ (retired < 5 → recordFails < 2 → keysRise none s.nv.buffer = true → s'.nv.txn = n
          ∧ ∀ e ∈ s.nv.buffer, ∃ p : NvPage, s'.nvMap e.1 = some p ∧ p.cur.data = e.2 ∧ p.cur.txn = n)
        ∧ ∀ done : Nat, s.nv.spares.Nodup → (∀ p ∈ s.nv.spares, p < 4032) → keysRise none s.nv.wear = true →
          s.nv.buffer.length + retired ≤ s.nv.spares.length →
          let gone := s.nv.abandon n retired done
          gone.pages = s.nv.pages ∧ gone.spares.length = s.nv.spares.length - min 5 retired
            ∧ ∀ p ∈ s.nv.spares, p ∉ gone.spares → wearOf gone.wear p = wearOf s.nv.wear p + 1

/-- The ledger counts minutes and seconds, takes the host's time only forwards, and closes a period with its entry, as the command
enters the commit buffer (the model's reading, log 38). Where the NV store holds the ledger is the model's choice (log 5). The
governing temperature of the F-die counts while the guyline is down (R362). The register LEDGER_HOST_TIME is one of the F-die: without the
guyline its write completes FAILED_FAULT, and LEDGER_READ and LEDGER_CLOSE_PERIOD do too (R282, logs 126 and 65). -/
def Obligations.ServiceLedger : Prop :=
  ∀ (t : Time) (s : State),
    let a := s.advance t
    (s.hk.on = true → (∀ g ∈ s.nv.waiting, ∀ b : Bytes, g.act ≠ .close b) → ∃ s', exec (.operatingMinute t) s = .next s'
      ∧ s'.ledger.minutes = s.ledger.minutes + 1
        ∧ s'.ledger.bands = s.ledger.bands.modify (bandIndex s.thm.peak) (· + 1) ∧ s'.ledger.openMin = s.ledger.openMin + 1
        ∧ s'.ledger.time = s.ledger.time ∧ s'.mem = s.mem ∧ s'.frames = s.frames
        ∧ s'.thm.peak = if s.links.gln = .down then max s.thm.gov s.thm.govF else s.thm.gov)
    ∧ (s.hk.on = true → exec (.ledgerSecond t) s = .next { a with ledger := { s.ledger with time := s.ledger.time + 1 } })
    ∧ (∀ h : Word, (s.fdieUp = false → exec (.ledgerHostTimeWrite t h) s = .next { a with wstatus := .failedFault })
        ∧ (s.fdieUp = true → s.ledger.start ≤ h.toNat → exec (.ledgerHostTimeWrite t h) s
          = .next { a.valueAcross (Param.ledgerHostTime.id 0) h.toNat with
              ledger := { s.ledger with time := max h.toNat s.ledger.time }, wstatus := .done })
        ∧ (s.fdieUp = true → h.toNat < s.ledger.start → ∃ s', exec (.ledgerHostTimeWrite t h) s = .next s'
          ∧ s'.wstatus = .done ∧ s'.ledger = { s.ledger with
              time := max h.toNat s.ledger.time, regress := satAdd 0xFFFF s.ledger.regress 1, openFlag := true }))
    ∧ (∀ (x : Ctx) (tag : BitVec 11) (c : Cmd) (sg : Nat), s.nvUp = false →
        (a.starting x tag.toNat 0x6010 = some c → exec (.ledgerRead t x tag sg) s = .next (a.complete x c .failedFault))
        ∧ (a.starting x tag.toNat 0x6011 = some c → exec (.ledgerClosePeriod t x tag) s = .next (a.complete x c .failedFault)))
    ∧ (∀ (x : Ctx) (tag : BitVec 11) (c : Cmd), s.nvUp = true → s.roleOf x = 1 →
        (a.starting x tag.toNat 0x6011 = some c → c.payload.length = 12 →
          (256 ≤ s.ledger.closed → exec (.ledgerClosePeriod t x tag) s = .next (a.complete x c .nvFull))
          ∧ (s.ledger.closed < 256 → s.nv.spares.length < 64 → exec (.ledgerClosePeriod t x tag) s = .next (a.complete x c .nvFull))
          ∧ (s.ledger.closed < 256 → 64 ≤ s.nv.spares.length → exec (.ledgerClosePeriod t x tag) s
            = .next ((a.await x c (.nvQueued none)).nvSubmit
              { ups := [], now := true, owner := some (x, c.tag % 2048), act := .close c.payload })))
        ∧ (∀ g : NvGroup, g.act = .close c.payload → s.nvOwner g = some (x, c) → s.ledger.closed < 256 →
            let h := leAt c.payload 0 4
            let now := max h s.ledger.time
            (s.nvTake g).ledger = { s.ledger with
                time := now, closed := s.ledger.closed + 1, openIdx := s.ledger.openIdx + 1, start := now, openMin := 0
                openPulses := 0, openFlag := false
                regress := if h ≠ 0 ∧ h < s.ledger.start then satAdd 0xFFFF s.ledger.regress 1 else s.ledger.regress })
        ∧ (∀ sg n : Nat, a.starting x tag.toNat 0x6010 = some c → c.payload.length = 20 → leAt c.payload 2 2 = n → n ≤ 256 →
            s.nvLocked 1 = false → s.password 1 false = noPassword → s.nvMap 256 = none →
            (∀ q : Nat, q < 289 → (s.nvLook q).recovered = false) →
            c.sgAddr ≠ 0 → s.sgInDevice x = false → (s.ctx x).busOff = false → 256 + 32 * n ≤ sg →
            let first := leAt c.payload 0 2
            let log := (((List.range n).map fun i => 257 + (first + i) / 8).filter fun q => q < 289).eraseDups
            let sent := (256 :: log).foldl (fun u q => u.sendAcross .fc (.nvData q 0 (s.nvLook q).data))
              (a.sendAcross .cf (.nvCommand c.opcode 256 first n))
            ∃ (s' : State) (b : Bytes), exec (.ledgerRead t x tag sg) s = .next s'
              ∧ s' = ({ sent with out := s.out ++ [.scatter x c.tag b] } : State).complete x c .done (256 + 32 * n)
              ∧ b.length = 256 + 32 * n ∧ b.take 256 = Ledger.reset.bytes))

/-- A master transfer on a peg port: it starts with SEL, moves a byte each way at each PRDY in the port's bit order, ends early at a
timeout, and frees SEL at its end. The slave path: selection, bytes in and out, and the count of an incomplete frame. How much of the FIFO
the context has read by an instant is a free value (log 2), and the bits of a byte stand in wire order (log 133); without the guyline a
transfer does not start (R282, log 126). The order of the refusals of PEG_XFER, BAD_PARAM ahead of BUSY, is the model's (log 81; R393
states none), and so is that what the context discards does not fill the FIFO (log 148). A change of PEG_CFG waits for the end of a
running transfer (R391): held keeps the setup that it started with. -/
def Obligations.PegMasterAndSlave : Prop :=
  (∀ (t : Time) (n : Fin 2) (s : State),
     let a := s.advance t
     let k := s.peg n.val
     (s.fdieUp = false → ∀ v : BitVec 10, exec (.pegXferWrite t n v) s = .next { a with wstatus := .failedFault })
     ∧ (s.fdieUp = true → ∀ v : BitVec 10,
       let b := a.valueAcross (Param.pegXfer.id n) v.toNat
       let code := v.toNat % 16
       let len := bitsOf v.toNat 9 4
       (code = 15 ∨ len = 0 ∨ 32 < len → exec (.pegXferWrite t n v) s = .next { b with wstatus := .badParam })
       ∧ (code ≠ 15 → 1 ≤ len → len ≤ 32 →
         (s.pegSlave n.val = true ∨ k.xfer ≠ none ∨ k.queued ≠ none →
           exec (.pegXferWrite t n v) s = .next { b with wstatus := .busy })
         ∧ (s.pegSlave n.val = false → k.xfer = none → k.queued = none →
           ((s.peg (1 - n.val)).xfer = none → exec (.pegXferWrite t n v) s = .next { b.modPeg n.val (fun j =>
               { j with xfer := some (code, len), held := some (s.par .pegCfg n.val), queued := none, status := 2, bytes := 0 }) with
             pins := { s.pins with sel := code, selEn := some (max s.time t) }, wstatus := .done })
           ∧ ((s.peg (1 - n.val)).xfer ≠ none → exec (.pegXferWrite t n v) s = .next { b.modPeg n.val (fun j =>
               { j with queued := some (code, len), status := 2, bytes := 0 }) with wstatus := .done }))))
     ∧ (∀ (code len : Nat) (rx : Byte), k.xfer = some (code, len) → k.bytes < len →
         let tx := s.pegBits n.val (s.pegTx n.val k.bytes)
         exec (.pegPrdyHigh t n rx) s
           = .next (({ a with out := s.out ++ [.pegByte n code (bitsOf (s.pegSetup n.val) 2 1) tx] } : State).modPeg n.val fun j =>
             { j with rx := j.rx.set k.bytes (s.pegBits n.val rx), bytes := k.bytes + 1, lastTx := tx }))
     ∧ (∀ code len : Nat, k.xfer = some (code, len) → k.bytes < len → s.par .pegRdyTmo n.val ≠ 0 → exec (.pegPrdyTimeout t n) s
         = .next ((a.modPeg n.val fun j => { j with xfer := some (code, j.bytes), status := 1 }).bump .pegRdyToCnt n.val))
     ∧ (∀ code len : Nat, k.xfer = some (code, len) → len ≤ k.bytes → n.val < s.pegs.length → ∃ s',
         exec (.pegTransferDone t n) s = .next s' ∧ (s'.peg n.val).xfer = none ∧ (s'.peg n.val).held = none ∧ (s'.peg n.val).rx = k.rx
           ∧ ((s.peg (1 - n.val)).queued = none → s'.pins = { s.pins with sel := 15, selEn := none })
           ∧ (∀ l m : Nat, (s.peg (1 - n.val)).queued = some (l, m) → 1 - n.val < s.pegs.length →
               (s'.peg (1 - n.val)).xfer = some (l, m) ∧ (s'.peg (1 - n.val)).queued = none
               ∧ s'.pins = { s.pins with sel := l, selEn := some (max s.time t) })
           ∧ s'.mem = s.mem ∧ s'.nv = s.nv))
    ∧ (∀ (t : Time) (n : Fin 2) (rx : Byte) (s : State), n.val < s.pegs.length →
          let a := s.advance t
          let k := s.peg n.val
          let b := s.pegBits n.val rx
          let got := Config.freeValue s.free 10 % 1024
          (s.pegSlave n.val = true → exec (.pegSsNFall t n) s
              = .next (a.modPeg n.val fun j => { j with selected := true, txPos := 0, rxFifo := [], rxFrame := [], discard := false }))
          ∧ (s.pegSlave n.val = true → k.selected = true → ∃ s', exec (.pegSlaveByte t n rx) s = .next s' ∧ s'.mem = s.mem
              ∧ (s'.peg n.val).rxFrame = k.rxFrame ++ k.rxFifo.take got
              ∧ (k.discard = false → k.rxFifo.length - got < 512 →
                (k.rxFifo ≠ [] ∨ k.rxFrame ≠ [] ∨ b = 0xC0 ∨ b = 0xD1 ∨ b = 0xD2 →
                  (s'.peg n.val).rxFifo = k.rxFifo.drop got ++ [b] ∧ (s'.peg n.val).discard = false)
                ∧ (k.rxFifo = [] → k.rxFrame = [] → b = 0xFF → (s'.peg n.val).rxFifo = [] ∧ (s'.peg n.val).discard = false)
                ∧ (k.rxFifo = [] → k.rxFrame = [] → b ≠ 0xFF → b ≠ 0xC0 → b ≠ 0xD1 → b ≠ 0xD2 →
                  (s'.peg n.val).rxFifo = [] ∧ (s'.peg n.val).discard = true))
              ∧ (512 ≤ k.rxFifo.length - got → (s'.peg n.val).rxFifo = k.rxFifo.drop got ∧ (s'.peg n.val).discard = true
                ∧ (regsWf s.regs = true → s'.par .pegRxOvfCnt n.val
                  = satAdd (2 ^ Param.pegRxOvfCnt.row.width - 1) (s.par .pegRxOvfCnt n.val) 1))
              ∧ (k.discard = true → (s'.peg n.val).rxFifo = k.rxFifo.drop got)
              ∧ (k.txFrames = [] → (s'.peg n.val).lastTx = 0xFF)
              ∧ ∀ (f : Bytes) (r : List Bytes), k.txFrames = f :: r → f.head? ≠ some 0xD2 ∨ k.txPos < 256 →
                (s'.peg n.val).lastTx = s.pegBits n.val (f.getD k.txPos 0xFF)
                  ∧ (s'.peg n.val).txFrames = if f.length ≤ k.txPos + 1 then r else k.txFrames)
          ∧ (∃ s', exec (.pegSsNRise t n) s = .next s' ∧ (s'.peg n.val).selected = false ∧ (s'.peg n.val).rxFifo = []
              ∧ (s'.peg n.val).rxFrame = [] ∧ (s'.peg n.val).txFrames = k.txFrames
              ∧ (k.discard = false → k.rxFifo = [] → k.rxFrame = [] → s'.regs = s.regs)
              ∧ ∀ x : Ctx, k.discard = true ∨ k.rxFifo ≠ [] ∨ k.rxFrame ≠ [] → s.pegContext n.val = some x →
                s' = (a.modPeg n.val fun j =>
                  { j with selected := false, discard := false, rxFifo := [], rxFrame := [], txPos := 0 }).bump .hostRejectCnt x.val))
/-! Counters, sampling and debug access (chapter 14). -/

/-- A snapshot is latched and then written to the ring; the registers of the counters and of sampling take their values and clear what the
spec says they clear; a latch of the instant of a clear still sees the counts before it (R401); before a latch and a change of a unit its
counters take in what has occurred (countUnit), the nodes of the rows that are entering among them (the model's, log 63), and no parameter
changes but the count of lost samples; SAMPLE_READ hands the oldest samples over. What a counter gains of an event whose number the spec
leaves open is a free value (log 17), and registers of units on the F-die need the guyline (R282, log 126). The first record has number 0
(log 72). -/
def Obligations.CountersSnapshotsAndSamples : Prop :=
  ∀ (t : Time) (x : Ctx) (tag : BitVec 11) (sg : Nat) (s : State) (c : Cmd),
    let a := s.advance t
    let unit (s : State) (u : Nat) : CounterUnit := s.perf.units.getD u .reset
    (a.starting x tag.toNat 0xA001 = some c → c.payload = [] → c.sgAddr = 0 →
      (s.perf.latched.length < 2 → ∃ (s' : State) (b : Bytes), exec (.perfSnapshot t x tag sg) s = .next s'
        ∧ s'.perf.latched = s.perf.latched ++ [(b, some (x, c.tag % 2048))] ∧ s'.perf.snapSeq = (s.perf.snapSeq + 1) % 2 ^ 32
        ∧ (∀ u : Fin 16, b.getD (12 + u.val / 8) 0 &&& BitVec.ofNat 8 (2 ^ (u.val % 8))
            = if u.val < 5 ∧ s.links.gln = .down then 0 else BitVec.ofNat 8 (2 ^ (u.val % 8)))
        ∧ s'.mem = s.mem ∧ s'.frames = s.frames
        ∧ (∀ (p : Param) (i : Nat), i < p.row.count → p ≠ .sampleLostCnt → s'.par p i = s.par p i))
      ∧ (2 ≤ s.perf.latched.length → exec (.perfSnapshot t x tag sg) s = .next (a.complete x c .busy)))
    ∧ (s.perf.latched = [] → exec (.snapshotWritten t) s = .next a)
    ∧ (∀ (b : Bytes) (r : List (Bytes × Option (Ctx × Nat))), cellsWf s.mem.cells = true →
        (s.perf.latched = (b, none) :: r → ∃ s', exec (.snapshotWritten t) s = .next s' ∧ s'.perf.latched = r
          ∧ s'.perf.snapIdx = leAt b 0 4 % 64 ∧ s'.readMem (snapAddr + 1536 * (leAt b 0 4 % 64)) b.length = b
          ∧ s'.ctxs = s.ctxs)
        ∧ ∀ n : Nat, s.perf.latched = (b, some (x, n)) :: r → c.sgAddr = 0 →
          ((s.ctx x).inflight.find? fun d => d.tag % 2048 == n && d.wait == .snapshot) = some c →
          ∃ s', exec (.snapshotWritten t) s = .next s' ∧ s'.readMem (snapAddr + 1536 * (leAt b 0 4 % 64)) b.length = b
            ∧ s' = (({ a with perf := { a.perf with latched := r, snapIdx := leAt b 0 4 % 64 } } : State).writeMem
                (snapAddr + 1536 * (leAt b 0 4 % 64)) b).complete x c .done (leAt b 0 4 % 64))
    ∧ (∀ n : Nat, a.starting x tag.toNat 0xA002 = some c → c.payload.length = 2 → leAt c.payload 0 2 = n → 1 ≤ n → n ≤ 4096 →
        c.sgAddr ≠ 0 → s.sgInDevice x = false → (s.ctx x).busOff = false → 32 * (s.perf.samples.take n).length ≤ sg →
        exec (.sampleRead t x tag sg) s = .next (({ a with
          out := s.out ++ [.scatter x c.tag (s.perf.samples.take n).flatten]
          perf := { a.perf with samples := s.perf.samples.drop n } } : State).complete x c .done (s.perf.samples.take n).length))
    ∧ (∀ (u : Fin 16) (j : Fin 8) (v : Byte),
        let here := onFDie .perfEvsel (8 * u + j) = false ∨ s.fdieUp = true
        (¬ here → exec (.perfEvselWrite t u j v) s = .next { a with wstatus := .failedFault })
        ∧ (here → eventCodeOk u v.toNat = false → exec (.perfEvselWrite t u j v) s
          = .next { a.valueTo .perfEvsel (8 * u + j) v.toNat with wstatus := .badParam })
        ∧ (here → eventCodeOk u v.toNat = true → regsWf s.regs = true → ∃ s', exec (.perfEvselWrite t u j v) s = .next s'
          ∧ s'.par .perfEvsel (8 * u + j) = v.toNat ∧ (unit s' u).cnt.getD j 0 = 0
          ∧ (∀ w : Nat, w ≠ u.val → unit s' w = unit a w) ∧ s'.mem = s.mem ∧ s'.wstatus = .done))
    ∧ (∀ (u : Fin 16) (v : BitVec 6),
        (onFDie .perfCtl u = true → s.fdieUp = false → exec (.perfCtlWrite t u v) s = .next { a with wstatus := .failedFault })
        ∧ (onFDie .perfCtl u = false ∨ s.fdieUp = true → regsWf s.regs = true → ∃ s', exec (.perfCtlWrite t u v) s = .next s'
          ∧ s'.par .perfCtl u = v.toNat ∧ s'.wstatus = .done
          ∧ (∀ j : Nat, j < 8 → (unit s' u).cnt.getD j 0 =
              if bitOf (s.par .perfCtl u) (2 + j / 2) = bitOf v.toNat (2 + j / 2) then
                (unit (a.countUnit u (max s.time t)) u).cnt.getD j 0 else 0)
          ∧ (∀ w : Nat, w ≠ u.val → unit s' w = unit a w) ∧ s'.mem = s.mem))
    ∧ (∀ v : BitVec 16, ∃ s', exec (.perfClearWrite t v) s = .next s' ∧ s'.wstatus = .done ∧ s'.mem = s.mem
        ∧ (∀ (p : Param) (i : Nat), i < p.row.count → p ≠ .sampleLostCnt → s'.par p i = s.par p i)
        ∧ ∀ u : Nat, u < 16 → (bitOf v.toNat u = false → unit s' u = unit a u)
          ∧ (bitOf v.toNat u = true → (unit s' u).ovf = 0 ∧ (unit s' u).cycles = (unit a u).cycles
            ∧ ∀ j : Nat, (unit s' u).cnt.getD j 0 = 0))
    ∧ (∀ (u : Nat) (at_ : Time), u < s.perf.units.length → (unit s u).before = [] → at_ ≤ s.time →
        ((unit (s.clearCounters u fun _ => true) u).latched at_).cnt = (unit s u).cnt)
    ∧ ∀ v : Byte, (Param.inRange false .sampleCfg 0 v.toNat = false →
          exec (.sampleCfgWrite t v) s = .next { a with wstatus := .badParam })
        ∧ (Param.inRange false .sampleCfg 0 v.toNat = true → regsWf s.regs = true → ∃ s', exec (.sampleCfgWrite t v) s = .next s'
          ∧ s'.par .sampleCfg = v.toNat ∧ s'.perf.lfsr = BitVec.ofNat 31 (s.par .sampleSeed)
          ∧ s'.perf.samples = (a.nodesTo (max s.time t)).perf.samples ∧ s'.wstatus = .done ∧ s'.mem = s.mem)

/-- While the guyline is down a snapshot does not hold units 0 to 4: their fields are zero, and their UNIT_VALID bits are 0. -/
def Obligations.SnapshotsWithTheGuylineDown : Prop :=
  ∀ (s : State) (cause : Nat) (at_ : Time) (owner : Option (Ctx × Nat)), s.links.gln = .down →
    ∃ b : Bytes, (s.latch cause at_ owner).perf.latched = s.perf.latched ++ [(b, owner)] ∧ b.length = 1536
      ∧ (∀ u : Nat, u < 5 → sliceB (64 + 64 * u) 64 b = List.replicate 64 0 ∧ bitOf (leAt b 12 2) u = false)
      ∧ ∀ u : Nat, 5 ≤ u → u < 16 → bitOf (leAt b 12 2) u = true

/-- A debug read is a peek: but for the time base, the value that leaves on TDO and the model's own supply of free values, the state is
the one before it. -/
def Obligations.DebugReadsArePeeks : Prop :=
  ∀ (t : Time) (r : DbgReq) (s : State),
    (∃ u j, r = .counter u j) ∨ (∃ m, r = .mem m) ∨ (∃ id, r = .param id) ∨ (∃ k n, r = .coreReg k n) →
    ∃ (s' : State) (f : Nat), exec (.dbgAccess t r) s = .next s'
      ∧ (s' = { s.advance t with free := f } ∨ ∃ v : Nat, s' = { s.advance t with free := f, out := s.out ++ [.debug v] })

/-- DEBUG_UNLOCK draws a nonce, opens a level on the owner's signature and closes it; a boundary scan captures the pins, preloads the
boundary register and never drives both inputs of a bridge high; the TAP reaches the device through an open level only; a core halts,
steps and goes on; a lock of a halted core is revoked after 1 ms. The locks of a core, its registers, when it comes to a breakpoint
(log 31) the cells of the boundary register (log 132), and the manufacturer's code and the core of a context (log 7) are the model's
choices. -/
def Obligations.DebugUnlockAndAccess : Prop :=
  ∀ (t : Time) (s : State),
    let a := s.advance t
    (∀ (x : Ctx) (tag : BitVec 11) (sg : Nat) (c : Cmd), a.starting x tag.toNat 0xA003 = some c → s.roleOf x = 1 →
      (leAt c.payload 0 1 = 1 → c.payload.length = 4 → c.sgAddr ≠ 0 → s.sgInDevice x = false →
        (s.ctx x).busOff = false → 48 ≤ sg →
        let n := padTo 48 (Config.random s.sec.draws 48)
        let b := (a.modSec fun k => { k with draws := k.draws + 1 }).modDbg fun d =>
          { d with nonce := some (n, max s.time t + 60000000000) }
        exec (.debugUnlock t x tag sg) s
          = .next (({ b with out := s.out ++ [.scatter x c.tag n] } : State).complete x c .done))
      ∧ (∀ l m : Nat, leAt c.payload 0 1 = 2 → leAt c.payload 1 1 = l → leAt c.payload 2 2 = m → l = 1 ∨ l = 2 →
        c.payload.length = 100 →
        let live := a.liveNonce
        let v := if live.isSome then a.verified 1 else a
        let opened := v.modDbg fun d => { d with level := l, minutes := m, forever := m == 0 }
        (l = 2 → s.anyStream = true ∨ s.pair.mode = .paired → exec (.debugUnlock t x tag sg) s = .next (a.complete x c .busy))
        ∧ (l = 1 ∨ (s.anyStream = false ∧ s.pair.mode ≠ .paired) →
          exec (.debugUnlock t x tag sg) s = .next (
            if live.any (fun n => s.ownerSigned (unlockText n l m) (c.payload.drop 4)) then
              ((if l = 2 then opened.endStarts else opened).devEvent 0x0D01
                (leBytes 1 l ++ leBytes 1 x ++ leBytes 2 m)).complete x c .done
            else (v.bump .dbgUnlockFailCnt).complete x c .authFail)))
      ∧ (leAt c.payload 0 1 = 3 → c.payload.length = 4 → s.dbg.level ≠ 0 → exec (.debugUnlock t x tag sg) s
          = .next (((a.modDbg fun d => { d with level := 0, minutes := 0, forever := false }).devEvent 0x0D02
              (leBytes 1 1)).complete x c .done)))
    ∧ (∀ (n : Bytes) (e : Time), s.dbg.nonce = some (n, e) →
        (e ≤ max s.time t → exec (.debugNonceExpiry t) s = .next (a.modDbg fun d => { d with nonce := none }))
        ∧ (max s.time t < e → exec (.debugNonceExpiry t) s = .next a))
    ∧ (s.dbg.level ≠ 0 → (s.dbg.minutes = 0 → s.dbg.forever = false → exec (.debugTimeExpiry t) s
          = .next ((a.modDbg fun d => { d with level := 0, minutes := 0, forever := false }).devEvent 0x0D02 (leBytes 1 2)))
        ∧ (s.dbg.minutes ≠ 0 ∨ s.dbg.forever = true → exec (.debugTimeExpiry t) s = .next a))
    ∧ (s.boot ≠ .unpowered →
        let load (i : TapInstr) : State := a.modDbg fun d => { d with tap := i }
        exec (.tapInstruction t .idcode) s = .next { load .idcode with out := s.out ++ [.debug s.idCode] }
        ∧ (s.dbg.level ≠ 2 → exec (.tapInstruction t .dbgAccess) s = .next (load (if s.dbg.level = 0 then .bypass else .dbgAccess)))
        ∧ (s.dbg.level = 2 → exec (.tapInstruction t .dbgAccess) s = .next (load .dbgAccess).hitBreaks)
        ∧ (∀ (seen : Scan) (c : Cells), exec (.tapInstruction t (.samplePreload seen c)) s
          = .next (({ load (.samplePreload seen c) with
              out := s.out ++ [.boundary ((load (.samplePreload seen c)).scanCells seen) (a.pinIns seen)] } : State).modDbg fun d =>
              { d with preload := c }))
        ∧ (∀ (seen : Scan) (i : TapInstr), i = .extest seen ∨ i = .extestPulse seen ∨ i = .extestTrain seen →
          (s.boot ≠ .inReset → exec (.tapInstruction t i) s = .next (load .bypass))
          ∧ (s.boot = .inReset → exec (.tapInstruction t i) s
            = .next { load i with out := s.out ++ [.boundary ((load i).scanCells seen) (a.pinIns seen)] })))
    ∧ (∀ c : Cells, (guardedCells c).flyA &&& (guardedCells c).flyB = 0)
    ∧ (∀ r : DbgReq, (s.dbg.level = 0 ∨ s.dbg.tap ≠ .dbgAccess → exec (.dbgAccess t r) s = .next a)
        ∧ ∃ s', exec (.dbgAccess t r) s = .next s' ∧ s'.mem = s.mem ∧ s'.hk = s.hk ∧ s'.frames = s.frames ∧ s'.tiles = s.tiles
          ∧ s'.nv = s.nv ∧ s'.sec = s.sec)
    ∧ (s.dbg.tap = .dbgAccess → s.dbg.level ≠ 0 →
        let b := a.hitBreaks
        (∀ id : Nat, exec (.dbgAccess t (.param id)) s = .next { a with out := s.out ++ [.debug (a.peekParam id)] })
        ∧ (∀ (k : Fin 4) (n : Nat), exec (.dbgAccess t (.coreReg k n)) s
            = .next ((a.coreRegister k n).2.debugOut (a.coreRegister k n).1))
        ∧ (∀ k : Fin 4, s.dbg.level = 1 → exec (.dbgAccess t (.halt k)) s = .next a ∧ exec (.dbgAccess t (.step k)) s = .next a
          ∧ exec (.dbgAccess t (.resume k)) s = .next a)
        ∧ (∀ k : Fin 4, s.dbg.level = 2 →
          (b.haltedAt k = none → ∃ s', exec (.dbgAccess t (.halt k)) s = .next s'
            ∧ s'.dbg.halted = b.dbg.halted.set k (some (max s.time t)) ∧ ∀ l ∈ s.dbg.locks, l ∈ s'.dbg.locks)
          ∧ (b.haltedAt k ≠ none →
            exec (.dbgAccess t (.step k)) s
              = .next ((b.modDbg fun d => { d with ages := d.ages.modify k.val (· + 1) }).perfEvent 13 (0x10 + k.val))
            ∧ ∃ s', exec (.dbgAccess t (.resume k)) s = .next s'
              ∧ s'.dbg.halted = b.dbg.halted.set k none ∧ ∀ l ∈ s'.dbg.locks, l ∈ b.dbg.locks ∧ l.2 ≠ k.val)
          ∧ ∀ addr : Nat, exec (.dbgAccess t (.breakpoint k addr)) s
            = .next (b.modDbg fun d => { d with breaks := d.breaks ++ [(k.val, addr)] })))
    ∧ ∀ (core : Fin 4) (lock : Fin 32) (h : Time), s.haltedAt core = some h →
        (max s.time t < h + 1000000 → exec (.lockRevoked t core lock) s = .next a)
        ∧ (h + 1000000 ≤ max s.time t → s.dbg.halted.length = 4 → none ∈ s.dbg.halted → (lock.val, core.val) ∈ s.dbg.locks →
          ∃ s', exec (.lockRevoked t core lock) s = .next s' ∧ s'.dbg.locks = s.dbg.locks.filter (fun e => e.1 != lock.val)
            ∧ s'.dbg.halted = s.dbg.halted ∧ s'.mem = s.mem ∧ s'.frames = s.frames
            ∧ (s.dbg.coreOf.length = 8 → ∀ x : Ctx, s'.dbg.coreOf.getD x.val 0 ≠ core.val))
end

