-- ==== Sys2Proof/Laws/Memory.lean ====
section
/-!
SUPPORT. The laws of the sorted lists, of external memory and of the register file: what a read after a write gives, and
that every operation keeps the canonical form.
-/
namespace Sys2Proof.Laws
open Sys2Proof.Machine

/-! Sorted lists. -/

/-- A lower bound under the bound of a rising list also bounds it. -/
theorem keysRise_lower {β : Type} {l : List (Nat × β)} {b : Nat} (h : keysRise (some b) l = true) {a : Nat} (ha : a ≤ b) :
    keysRise (some a) l = true := by
  cases l with
  | nil => rfl
  | cons e r => simp only [keysRise, Bool.and_eq_true, decide_eq_true_eq] at h ⊢; exact ⟨by omega, h.2⟩

theorem keysRise_none {β : Type} {l : List (Nat × β)} {b : Nat} (h : keysRise (some b) l = true) : keysRise none l = true := by
  cases l with
  | nil => rfl
  | cons e r => simp only [keysRise, Bool.and_eq_true] at h ⊢; exact h.2

/-- A key below every key of a list holds nothing. -/
theorem keyGet_below {β : Type} {l : List (Nat × β)} {b a : Nat} (h : keysRise (some b) l = true) (ha : a ≤ b) :
    keyGet l a = none := by
  cases l with
  | nil => rfl
  | cons e r =>
    simp only [keysRise, Bool.and_eq_true, decide_eq_true_eq] at h
    simp only [keyGet]; rw [if_neg (by omega), if_pos (by omega)]

theorem keyPut_rise {β : Type} {l : List (Nat × β)} {b a : Nat} {v : β} (h : keysRise (some b) l = true) (ha : b < a) :
    keysRise (some b) (keyPut l a v) = true := by
  induction l generalizing b with
  | nil => simp [keyPut, keysRise, ha]
  | cons e r ih =>
    obtain ⟨k, w⟩ := e
    simp only [keysRise, Bool.and_eq_true, decide_eq_true_eq] at h
    simp only [keyPut]
    split
    · simp_all [keysRise]
    · split
      · subst_vars; simp_all [keysRise]
      · simp only [keysRise, Bool.and_eq_true, decide_eq_true_eq]; exact ⟨h.1, ih h.2 (by omega)⟩

/-- Putting a value keeps the keys rising. -/
theorem keyPut_wf {β : Type} {l : List (Nat × β)} {a : Nat} {v : β} (h : keysRise none l = true) :
    keysRise none (keyPut l a v) = true := by
  cases l with
  | nil => rfl
  | cons e r =>
    obtain ⟨k, w⟩ := e
    simp only [keysRise] at h
    simp only [keyPut]
    split
    · simp_all [keysRise]
    · split
      · subst_vars; simp_all [keysRise]
      · simp only [keysRise]; exact keyPut_rise h (by omega)

theorem keyDel_rise {β : Type} {l : List (Nat × β)} {b a : Nat} (h : keysRise (some b) l = true) :
    keysRise (some b) (keyDel l a) = true := by
  induction l generalizing b with
  | nil => rfl
  | cons e r ih =>
    obtain ⟨k, w⟩ := e
    simp only [keysRise, Bool.and_eq_true, decide_eq_true_eq] at h
    simp only [keyDel]
    split
    · exact keysRise_lower h.2 (by omega)
    · split
      · simp_all [keysRise]
      · simp only [keysRise, Bool.and_eq_true, decide_eq_true_eq]; exact ⟨h.1, ih h.2⟩

/-- Deleting a key keeps the keys rising. -/
theorem keyDel_wf {β : Type} {l : List (Nat × β)} {a : Nat} (h : keysRise none l = true) : keysRise none (keyDel l a) = true := by
  cases l with
  | nil => rfl
  | cons e r =>
    obtain ⟨k, w⟩ := e
    simp only [keysRise] at h
    simp only [keyDel]
    split
    · exact keysRise_none h
    · split
      · simp_all [keysRise]
      · simp only [keysRise]; exact keyDel_rise h

/-- A read after a put gives the value at its key and what was there elsewhere. -/
theorem keyGet_keyPut {β : Type} {l : List (Nat × β)} (a n : Nat) (v : β) :
    keyGet (keyPut l a v) n = if n = a then some v else keyGet l n := by
  induction l with
  | nil => simp only [keyPut, keyGet]; split <;> split <;> first | rfl | omega | (split <;> first | rfl | omega)
  | cons e r ih =>
    obtain ⟨k, w⟩ := e
    simp only [keyPut]
    split
    · simp only [keyGet]; repeat' split
      all_goals first | rfl | omega
    · split
      · subst_vars; simp only [keyGet]; repeat' split
        all_goals first | rfl | omega
      · simp only [keyGet, ih]; repeat' split
        all_goals first | rfl | omega

/-- A read after a deletion. -/
theorem keyGet_keyDel {β : Type} {l : List (Nat × β)} (h : keysRise none l = true) (a n : Nat) :
    keyGet (keyDel l a) n = if n = a then none else keyGet l n := by
  induction l with
  | nil => simp [keyDel, keyGet]
  | cons e r ih =>
    obtain ⟨k, w⟩ := e
    simp only [keysRise] at h
    simp only [keyDel]
    split
    · subst_vars
      split
      · subst_vars; exact keyGet_below h (Nat.le_refl _)
      · simp only [keyGet]
        repeat' split
        all_goals first | rfl | omega | exact keyGet_below h (by omega)
    · split
      · simp only [keyGet]; repeat' split
        all_goals first | rfl | omega
      · simp only [keyGet, ih (keysRise_none h)]; repeat' split
        all_goals first | rfl | omega

/-- What every element of a list satisfies, every element of the list with one more satisfies. -/
theorem keyPut_all {β : Type} {l : List (Nat × β)} {a : Nat} {v : β} {p : Nat × β → Bool} (h : l.all p = true)
    (hv : p (a, v) = true) : (keyPut l a v).all p = true := by
  induction l with
  | nil => simp [keyPut, hv]
  | cons e r ih =>
    obtain ⟨k, w⟩ := e
    simp only [List.all_cons, Bool.and_eq_true] at h
    simp only [keyPut]; split
    · simp_all
    · split
      · simp_all
      · simp only [List.all_cons, Bool.and_eq_true]; exact ⟨h.1, ih h.2⟩

theorem keyDel_all {β : Type} {l : List (Nat × β)} {a : Nat} {p : Nat × β → Bool} (h : l.all p = true) :
    (keyDel l a).all p = true := by
  induction l with
  | nil => rfl
  | cons e r ih =>
    obtain ⟨k, w⟩ := e
    simp only [List.all_cons, Bool.and_eq_true] at h
    simp only [keyDel]; split
    · exact h.2
    · split
      · simp_all
      · simp only [List.all_cons, Bool.and_eq_true]; exact ⟨h.1, ih h.2⟩

/-! External memory. -/

/-- A byte store keeps the canonical form. -/
theorem putCell_wf {cells : List Host.Cell} (h : cellsWf cells = true) (a : Nat) (b : Byte) : cellsWf (putCell cells a b) = true := by
  simp only [cellsWf, Bool.and_eq_true] at h ⊢
  unfold putCell
  split
  · exact ⟨keyDel_wf h.1, keyDel_all h.2⟩
  · exact ⟨keyPut_wf h.1, keyPut_all h.2 (by simpa using ‹_›)⟩

/-- A read of one byte after a byte store. -/
theorem cellByte_putCell {cells : List Host.Cell} (h : cellsWf cells = true) (a n : Nat) (b : Byte) :
    cellByte (putCell cells a b) n = if n = a then b else cellByte cells n := by
  simp only [cellsWf, Bool.and_eq_true] at h
  unfold putCell cellByte
  split
  · rw [keyGet_keyDel h.1]; split <;> simp_all
  · rw [keyGet_keyPut]; split <;> simp_all

/-- A store of bytes keeps the canonical form. -/
theorem putCells_wf {cells : List Host.Cell} (h : cellsWf cells = true) (a : Nat) (b : Bytes) : cellsWf (putCells cells a b) = true := by
  induction b generalizing cells a with
  | nil => exact h
  | cons x r ih => exact ih (putCell_wf h a x) (a + 1)

/-- A store of bytes leaves every byte below it alone. -/
theorem cellByte_putCells_below {cells : List Host.Cell} (h : cellsWf cells = true) (a n : Nat) (b : Bytes) (hn : n < a) :
    cellByte (putCells cells a b) n = cellByte cells n := by
  induction b generalizing cells a with
  | nil => rfl
  | cons x r ih => rw [putCells, ih (putCell_wf h a x) (a + 1) (by omega), cellByte_putCell h, if_neg (by omega)]

/-- A store of bytes leaves every byte above it alone. -/
theorem cellByte_putCells_above {cells : List Host.Cell} (h : cellsWf cells = true) (a n : Nat) (b : Bytes) (hn : a + b.length ≤ n) :
    cellByte (putCells cells a b) n = cellByte cells n := by
  induction b generalizing cells a with
  | nil => rfl
  | cons x r ih =>
    simp only [List.length_cons] at hn
    rw [putCells, ih (putCell_wf h a x) (a + 1) (by omega), cellByte_putCell h, if_neg (by omega)]

/-- Clearing a range keeps the canonical form. -/
theorem filter_wf {cells : List Host.Cell} (h : cellsWf cells = true) (p : Host.Cell → Bool) : cellsWf (cells.filter p) = true := by
  simp only [cellsWf, Bool.and_eq_true] at h ⊢
  refine ⟨?_, by simp only [List.all_eq_true] at h ⊢; exact fun c hc => h.2 c ((List.mem_filter.mp hc).1)⟩
  have key : ∀ (l : List Host.Cell) (b : Nat), keysRise (some b) l = true → keysRise (some b) (l.filter p) = true := by
    intro l
    induction l with
    | nil => intros; rfl
    | cons e r ih =>
      intro b hb
      simp only [keysRise, Bool.and_eq_true, decide_eq_true_eq] at hb
      rw [List.filter_cons]; split
      · simp only [keysRise, Bool.and_eq_true, decide_eq_true_eq]; exact ⟨hb.1, ih _ hb.2⟩
      · exact keysRise_lower (ih _ hb.2) (by omega)
  cases cells with
  | nil => rfl
  | cons e r =>
    simp only [keysRise] at h
    rw [List.filter_cons]; split
    · simp only [keysRise]; exact key _ _ h.1
    · exact keysRise_none (key _ _ h.1)

theorem writeMem_wf {s : State} (h : cellsWf s.mem.cells = true) (a : Nat) (b : Bytes) : cellsWf (s.writeMem a b).mem.cells = true :=
  putCells_wf h a b

theorem clearMem_wf {s : State} (h : cellsWf s.mem.cells = true) (a n : Nat) : cellsWf (s.clearMem a n).mem.cells = true :=
  filter_wf h _

/-- Bytes laid into segments keep the canonical form. -/
theorem fillSegments_wf {s : State} (h : cellsWf s.mem.cells = true) (l : List (Nat × Nat)) (b : Bytes) :
    cellsWf (s.fillSegments l b).mem.cells = true := by
  induction l generalizing s b with
  | nil => exact h
  | cons e r ih => exact ih (writeMem_wf h e.1 _) _

/-- Memory after reset is in canonical form. -/
theorem reset_cells_wf : cellsWf State.reset.mem.cells = true := rfl

end Sys2Proof.Laws
end

