-- ==== Sys2Proof/Laws/Reports.lean ====
section
/-!
SUPPORT. The shared operations that tell the hosts something change what Reports lists and nothing else: one lemma for
each, which a later proof cites in place of unfolding the operation.
-/
namespace Sys2Proof.Laws
open Sys2Proof.Machine

theorem reports_refl (s : State) : Reports s s := rfl

theorem reports_trans {a b c : State} (h : Reports a b) (k : Reports b c) : Reports a c := by
  unfold Reports at *; rw [k, h]

theorem reports_foldl {α : Type} {f : State → α → State} (h : ∀ s a, Reports s (f s a)) (l : List α) (s : State) :
    Reports s (l.foldl f s) := by
  induction l generalizing s with
  | nil => rfl
  | cons a r ih => exact reports_trans (h s a) (ih (f s a))

theorem setPar_reports (s : State) (p : Param) (i v : Nat) : Reports s (s.setPar p i v) := rfl
theorem bump_reports (s : State) (p : Param) (i n : Nat) : Reports s (s.bump p i n) := rfl
theorem modCtx_reports (s : State) (x : Ctx) (f : Context → Context) : Reports s (s.modCtx x f) := rfl
theorem sendAcross_reports (s : State) (m : LinkMsg) : Reports s (s.sendAcross .cf m) := by
  unfold State.sendAcross State.sendMessage State.pump; split
  · rfl
  · split <;> rfl
theorem pegSend_reports (s : State) (n : Fin 2) (b : Bytes) : Reports s (s.pegSend n b) := by
  unfold State.pegSend; split
  · rfl
  · exact reports_trans (b := { s with pegs := _ }) rfl (sendAcross_reports _ _)
theorem pairSend_reports (s : State) (m : PairMsg) (b : Bytes) : Reports s (s.pairSend m b) := by
  unfold State.pairSend State.sendMessage State.pump; simp only; split <;> rfl
theorem withOut_reports (s : State) (l : List HostOut) : Reports s { s with out := l } := rfl
theorem modCmd_reports (s : State) (x : Ctx) (t : Nat) (f : Cmd → Cmd) : Reports s (s.modCmd x t f) := rfl
theorem await_reports (s : State) (x : Ctx) (c : Cmd) (w : Wait) : Reports s (s.await x c w) := rfl
theorem advanceGen_reports (s : State) (t : Nat) : Reports s (s.advanceGen t) := rfl
theorem endCmd_reports (s : State) (x : Ctx) (c : Cmd) : Reports s (s.endCmd x c) := rfl

theorem perfEventAt_reports (s : State) (t : Time) (u code n : Nat) : Reports s (s.perfEventAt t u code n) := by
  unfold State.perfEventAt; simp only; split <;> rfl

theorem perfEvent_reports (s : State) (u code n : Nat) : Reports s (s.perfEvent u code n) := perfEventAt_reports s s.time u code n

theorem vectorNow_reports (s : State) (x : Ctx) (v : Nat) : Reports s (s.vectorNow x v) := by
  unfold State.vectorNow; simp only; split <;> rfl

theorem vector_reports (s : State) (x : Ctx) (v : Nat) : Reports s (s.vector x v) := by
  unfold State.vector; simp only; split
  · rfl
  · exact reports_trans (vectorNow_reports s x v) (modCtx_reports _ x _)

theorem ringError_reports (s : State) (x : Ctx) (n : Nat) : Reports s (s.ringError x n) :=
  reports_trans (modCtx_reports s x _) (vectorNow_reports _ x 2)

theorem writeEvent_reports (s : State) (x : Ctx) (code : Nat) (d : Bytes) (w : Stamp) : Reports s (s.writeEvent x code d w) := by
  unfold State.writeEvent; simp only
  split
  · split
    · split
      · exact reports_trans (reports_trans (modCtx_reports s x _) (perfEvent_reports _ _ _ _)) (vector_reports _ x 1)
      · exact reports_trans (modCtx_reports s x _) (bump_reports _ _ _ _)
    · rfl
  · split
    · exact reports_trans (modCtx_reports s x _) (reports_trans (pegSend_reports _ _ _) (perfEvent_reports _ _ _ _))
    · split
      · exact reports_trans (reports_trans (modCtx_reports s x _) (withOut_reports _ _)) (pairSend_reports _ _ _)
      · rfl

theorem eventAt_reports (s : State) (x : Ctx) (code : Nat) (d : Bytes) (w : Stamp) : Reports s (s.eventAt x code d w) := by
  unfold State.eventAt; split
  · exact writeEvent_reports s x code d w
  · rfl

theorem eventTo_reports (s : State) (x : Ctx) (code : Nat) (d : Bytes) : Reports s (s.eventTo x code d) :=
  eventAt_reports s x code d s.stamp

theorem ctxEventAt_reports (s : State) (x : Ctx) (code : Nat) (d : Bytes) (w : Stamp) : Reports s (s.ctxEventAt x code d w) := by
  unfold State.ctxEventAt; split
  · exact eventAt_reports s x code d w
  · split
    · exact eventAt_reports s x code d w
    · rfl

theorem ctxEvent_reports (s : State) (x : Ctx) (code : Nat) (d : Bytes) : Reports s (s.ctxEvent x code d) :=
  ctxEventAt_reports s x code d s.stamp

theorem devEventAt_reports (s : State) (code : Nat) (d : Bytes) (w : Stamp) : Reports s (s.devEventAt code d w) :=
  reports_foldl (fun s x => ctxEventAt_reports s x code d w) _ s

theorem devEvent_reports (s : State) (code : Nat) (d : Bytes) : Reports s (s.devEvent code d) :=
  devEventAt_reports s code d s.stamp

theorem flushLost_reports (s : State) (x : Ctx) : Reports s (s.flushLost x) := by
  unfold State.flushLost; split
  · rfl
  · split
    · exact reports_trans (modCtx_reports s x _) (eventTo_reports _ x _ _)
    · rfl

theorem replyTo_reports (s : State) (x : Ctx) (r : Reply) : Reports s (s.replyTo x r) := by
  unfold State.replyTo; simp only
  refine reports_trans (perfEvent_reports s 12 0x11 1) ?_
  split
  · split
    · exact reports_trans (modCtx_reports _ x _) (vector_reports _ x 0)
    · rfl
  · split
    · exact pegSend_reports _ _ _
    · split
      · exact reports_trans (withOut_reports _ _) (pairSend_reports _ _ _)
      · rfl

theorem refuse_reports (s : State) (x : Ctx) (t : Nat) (st : Status) (e : Bool) : Reports s (s.refuse x t st e) := by
  unfold State.refuse; simp only
  split
  · exact reports_trans (replyTo_reports s x _) (ctxEvent_reports _ _ _ _)
  · exact replyTo_reports s x _

theorem addSample_reports (s : State) (r : Bytes) : Reports s (s.addSample r) := by
  unfold State.addSample; split
  · rfl
  · split <;> rfl

theorem finish_reports (s : State) (x : Ctx) (c : Cmd) (st : Status) (r : Nat) (ran : Bool := true) :
    Reports s (s.finish x c st r ran) := by
  have h1 : Reports s ((s.endCmd x c).replyTo x
      { tag := c.tag, status := st, early := false, result := r % 2 ^ 32, time := s.time, phase := (s.ctx x).cq.phase }) :=
    reports_trans (endCmd_reports s x c) (replyTo_reports _ x _)
  unfold State.finish; simp only
  refine reports_trans h1 ?_
  generalize (s.endCmd x c).replyTo x _ = s1
  have h2 : Reports s1 (if st = .staleGeneration then s1.perfEvent 12 0x14 else s1) := by
    split
    · exact perfEvent_reports _ _ _ _
    · rfl
  refine reports_trans h2 ?_
  generalize (if st = .staleGeneration then s1.perfEvent 12 0x14 else s1) = s2
  have h3 : ∀ (b : Bytes), Reports s2 (if c.eventOnDone then s2.ctxEvent x 0x0001 b else s2) := by
    intro b; split
    · exact ctxEvent_reports _ _ _ _
    · rfl
  generalize Reply.bytes _ = b
  refine reports_trans (h3 b) ?_
  generalize (if c.eventOnDone = true then s2.ctxEvent x 0x0001 b else s2) = s3
  split
  · exact addSample_reports _ _
  · rfl

theorem settleAborts_reports (s : State) (n : Nat) : Reports s (s.settleAborts n) := by
  induction n generalizing s with
  | zero => rfl
  | succ n ih =>
    unfold State.settleAborts
    split
    · rfl
    · exact reports_trans (finish_reports s _ _ _ _) (ih _)

/-- A command completes: what the hosts are told is all that changes, unless the completion is held back, and then the command waits. -/
theorem complete_reports (s : State) (x : Ctx) (c : Cmd) (st : Status) (r : Nat) (ran : Bool := true) :
    Reports s (s.complete x c st r ran) := by
  unfold State.complete; split
  · exact await_reports s x c _
  · exact reports_trans (finish_reports s x c st r ran) (settleAborts_reports _ _)

theorem complete_holds {s : State} {x : Ctx} {c : Cmd} {st : Status} {r : Nat} {ran : Bool} (h : s.holdsBack x st ran = true) :
    s.complete x c st r ran = s.await x c (.held st r) := by unfold State.complete; rw [if_pos h]

theorem complete_runs {s : State} {x : Ctx} {c : Cmd} {st : Status} {r : Nat} {ran : Bool} (h : s.holdsBack x st ran = false) :
    s.complete x c st r ran = (s.finish x c st r ran).settleAborts (s.ctxs.map fun k => k.inflight.length).sum := by
  unfold State.complete; rw [h]; rfl

theorem completeInOrder_reports (s : State) (p : Ctx → Cmd → Option (Status × Nat)) : Reports s (s.completeInOrder p) := by
  refine reports_foldl (fun s e => ?_) _ s
  split
  · exact complete_reports s e.1 e.2 _ _
  · rfl

theorem completeWhere_reports (s : State) (p : Ctx → Cmd → Option (Status × Nat)) : Reports s (s.completeWhere p) := by
  refine reports_foldl (fun s x => reports_foldl (fun s c => ?_) _ s) _ s
  split
  · exact complete_reports s x c _ _
  · rfl

theorem sampleStep_reports (s : State) (k : Nat) : Reports s (s.sampleStep k).2 := by
  unfold State.sampleStep; split <;> rfl

theorem refuseEarly_reports (s : State) (x : Ctx) (h : Header) (b : Bool) (st : Status) : Reports s (s.refuseEarly x h b st) := by
  unfold State.refuseEarly; simp only
  have h1 : Reports s (if st = .staleGeneration then (s.bump .hostStaleCnt x).perfEvent 12 0x14 else s.bump .hostRejectCnt x) := by
    split
    · exact reports_trans (bump_reports s _ _ _) (perfEvent_reports _ _ _ _)
    · rfl
  refine reports_trans h1 ?_
  generalize (if st = .staleGeneration then (s.bump .hostStaleCnt x).perfEvent 12 0x14 else s.bump .hostRejectCnt x) = s1
  split
  · exact reports_trans (refuse_reports s1 x h.tag st _) (addSample_reports _ _)
  · exact refuse_reports s1 x h.tag st _

/-! What Reports leaves: every field but the six, of the links and the pair all but what goes to the peer or to a peg port, and of the debug
state all but the events that wait. -/

section
variable {s s' : State} (h : Reports s s')
include h
theorem Reports_pending : s'.pending = s.pending := by rw [h]
theorem Reports_time : s'.time = s.time := by rw [h]
theorem Reports_boot : s'.boot = s.boot := by rw [h]
theorem Reports_clk : s'.clk = s.clk := by rw [h]
theorem Reports_tick : s'.tick = s.tick := by rw [h]
theorem Reports_seq : s'.seq = s.seq := by rw [h]
theorem Reports_frames : s'.frames = s.frames := by rw [h]
theorem Reports_tiles : s'.tiles = s.tiles := by rw [h]
theorem Reports_drift : s'.drift = s.drift := by rw [h]
theorem Reports_hk : s'.hk = s.hk := by rw [h]
theorem Reports_thm : s'.thm = s.thm := by rw [h]
theorem Reports_bundle : s'.bundle = s.bundle := by rw [h]
theorem Reports_session : s'.session = s.session := by rw [h]
theorem Reports_act : s'.act = s.act := by rw [h]
theorem Reports_nv : s'.nv = s.nv := by rw [h]
theorem Reports_ledger : s'.ledger = s.ledger := by rw [h]
theorem Reports_sec : s'.sec = s.sec := by rw [h]
theorem Reports_links : s'.links = { s.links with cf := s'.links.cf, vx := s'.links.vx } := congrArg State.links h
theorem Reports_pair : s'.pair = { s.pair with sent := s'.pair.sent } := congrArg State.pair h
theorem Reports_scene : s'.scene = s.scene := by rw [h]
theorem Reports_held : s'.held = s.held := by rw [h]
theorem Reports_history : s'.history = s.history := by rw [h]
theorem Reports_fetches : s'.fetches = s.fetches := by rw [h]
theorem Reports_wstatus : s'.wstatus = s.wstatus := by rw [h]
theorem Reports_free : s'.free = s.free := by rw [h]
theorem Reports_dbg : s'.dbg = { s.dbg with heldEvents := s'.dbg.heldEvents } := congrArg State.dbg h
theorem Reports_pins : s'.pins = s.pins := by rw [h]
theorem Reports_aux : s'.aux = s.aux := by rw [h]
theorem Reports_outs : s'.outs = s.outs := by rw [h]
theorem Reports_mem : s'.mem = s.mem := by rw [h]
end

end Sys2Proof.Laws
end

