-- ==== Sys2Proof/Laws/State.lean ====
section
/-!
SUPPORT. What each update of one part of State leaves in each field: true by unfolding, and tagged for simp, so that no
later proof unfolds a record update.
-/
namespace Sys2Proof.Laws
open Sys2Proof.Machine
variable (s : State)

@[simp] theorem advance_pending (t : Time) : (s.advance t).pending = s.pending := rfl
@[simp] theorem advance_time (t : Time) : (s.advance t).time = max s.time t := rfl
@[simp] theorem advance_boot (t : Time) : (s.advance t).boot = s.boot := rfl
@[simp] theorem advance_clk (t : Time) : (s.advance t).clk = s.clk := rfl
@[simp] theorem advance_regs (t : Time) : (s.advance t).regs = s.regs := rfl
@[simp] theorem advance_tick (t : Time) : (s.advance t).tick = s.tick := rfl
@[simp] theorem advance_seq (t : Time) : (s.advance t).seq = s.seq := rfl
@[simp] theorem advance_scene (t : Time) : (s.advance t).scene = s.scene := rfl
@[simp] theorem advance_frames (t : Time) : (s.advance t).frames = s.frames := rfl
@[simp] theorem advance_tiles (t : Time) : (s.advance t).tiles = s.tiles := rfl
@[simp] theorem advance_drift (t : Time) : (s.advance t).drift = s.drift := rfl
@[simp] theorem advance_hk (t : Time) : (s.advance t).hk = s.hk := rfl
@[simp] theorem advance_thm (t : Time) : (s.advance t).thm = s.thm := rfl
@[simp] theorem advance_bundle (t : Time) : (s.advance t).bundle = s.bundle := rfl
@[simp] theorem advance_session (t : Time) : (s.advance t).session = s.session := rfl
@[simp] theorem advance_act (t : Time) : (s.advance t).act = s.act := rfl
@[simp] theorem advance_held (t : Time) : (s.advance t).held = s.held := rfl
@[simp] theorem advance_history (t : Time) : (s.advance t).history = s.history := rfl
@[simp] theorem advance_ctxs (t : Time) : (s.advance t).ctxs = s.ctxs := rfl
@[simp] theorem advance_gens (t : Time) : (s.advance t).gens = s.gens := rfl
@[simp] theorem advance_fetches (t : Time) : (s.advance t).fetches = s.fetches := rfl
@[simp] theorem advance_nv (t : Time) : (s.advance t).nv = s.nv := rfl
@[simp] theorem advance_ledger (t : Time) : (s.advance t).ledger = s.ledger := rfl
@[simp] theorem advance_sec (t : Time) : (s.advance t).sec = s.sec := rfl
@[simp] theorem advance_links (t : Time) : (s.advance t).links = s.links := rfl
@[simp] theorem advance_pair (t : Time) : (s.advance t).pair = s.pair := rfl
@[simp] theorem advance_perf (t : Time) : (s.advance t).perf =
    { s.perf.upToTime s.clk (max s.time t) with biasClear := s.perf.biasClear + s.biasCycles s.perf.upTo (max s.time t) } := rfl
@[simp] theorem advance_dbg (t : Time) : (s.advance t).dbg = s.dbg := rfl
@[simp] theorem advance_aux (t : Time) : (s.advance t).aux = s.aux := rfl
@[simp] theorem advance_pegs (t : Time) : (s.advance t).pegs = s.pegs := rfl
@[simp] theorem advance_pins (t : Time) : (s.advance t).pins = s.pins := rfl
@[simp] theorem advance_outs (t : Time) : (s.advance t).outs = s.outs := rfl
@[simp] theorem advance_mem (t : Time) : (s.advance t).mem = s.mem := rfl
@[simp] theorem advance_out (t : Time) : (s.advance t).out = s.out := rfl
@[simp] theorem advance_wstatus (t : Time) : (s.advance t).wstatus = s.wstatus := rfl
@[simp] theorem advance_free (t : Time) : (s.advance t).free = s.free := rfl

@[simp] theorem setPar_pending (p : Param) (i v : Nat) : (s.setPar p i v).pending = s.pending := rfl
@[simp] theorem setPar_time (p : Param) (i v : Nat) : (s.setPar p i v).time = s.time := rfl
@[simp] theorem setPar_boot (p : Param) (i v : Nat) : (s.setPar p i v).boot = s.boot := rfl
@[simp] theorem setPar_clk (p : Param) (i v : Nat) : (s.setPar p i v).clk = s.clk := rfl
@[simp] theorem setPar_regs (p : Param) (i v : Nat) : (s.setPar p i v).regs = putReg s.regs p i v := rfl
@[simp] theorem setPar_tick (p : Param) (i v : Nat) : (s.setPar p i v).tick = s.tick := rfl
@[simp] theorem setPar_seq (p : Param) (i v : Nat) : (s.setPar p i v).seq = s.seq := rfl
@[simp] theorem setPar_scene (p : Param) (i v : Nat) : (s.setPar p i v).scene = s.scene := rfl
@[simp] theorem setPar_frames (p : Param) (i v : Nat) : (s.setPar p i v).frames = s.frames := rfl
@[simp] theorem setPar_tiles (p : Param) (i v : Nat) : (s.setPar p i v).tiles = s.tiles := rfl
@[simp] theorem setPar_drift (p : Param) (i v : Nat) : (s.setPar p i v).drift = s.drift := rfl
@[simp] theorem setPar_hk (p : Param) (i v : Nat) : (s.setPar p i v).hk = s.hk := rfl
@[simp] theorem setPar_thm (p : Param) (i v : Nat) : (s.setPar p i v).thm = s.thm := rfl
@[simp] theorem setPar_bundle (p : Param) (i v : Nat) : (s.setPar p i v).bundle = s.bundle := rfl
@[simp] theorem setPar_session (p : Param) (i v : Nat) : (s.setPar p i v).session = s.session := rfl
@[simp] theorem setPar_act (p : Param) (i v : Nat) : (s.setPar p i v).act = s.act := rfl
@[simp] theorem setPar_held (p : Param) (i v : Nat) : (s.setPar p i v).held = s.held := rfl
@[simp] theorem setPar_history (p : Param) (i v : Nat) : (s.setPar p i v).history = s.history := rfl
@[simp] theorem setPar_ctxs (p : Param) (i v : Nat) : (s.setPar p i v).ctxs = s.ctxs := rfl
@[simp] theorem setPar_gens (p : Param) (i v : Nat) : (s.setPar p i v).gens = s.gens := rfl
@[simp] theorem setPar_fetches (p : Param) (i v : Nat) : (s.setPar p i v).fetches = s.fetches := rfl
@[simp] theorem setPar_nv (p : Param) (i v : Nat) : (s.setPar p i v).nv = s.nv := rfl
@[simp] theorem setPar_ledger (p : Param) (i v : Nat) : (s.setPar p i v).ledger = s.ledger := rfl
@[simp] theorem setPar_sec (p : Param) (i v : Nat) : (s.setPar p i v).sec = s.sec := rfl
@[simp] theorem setPar_links (p : Param) (i v : Nat) : (s.setPar p i v).links = s.links := rfl
@[simp] theorem setPar_pair (p : Param) (i v : Nat) : (s.setPar p i v).pair = s.pair := rfl
@[simp] theorem setPar_perf (p : Param) (i v : Nat) : (s.setPar p i v).perf = s.perf := rfl
@[simp] theorem setPar_dbg (p : Param) (i v : Nat) : (s.setPar p i v).dbg = s.dbg := rfl
@[simp] theorem setPar_aux (p : Param) (i v : Nat) : (s.setPar p i v).aux = s.aux := rfl
@[simp] theorem setPar_pegs (p : Param) (i v : Nat) : (s.setPar p i v).pegs = s.pegs := rfl
@[simp] theorem setPar_pins (p : Param) (i v : Nat) : (s.setPar p i v).pins = s.pins := rfl
@[simp] theorem setPar_outs (p : Param) (i v : Nat) : (s.setPar p i v).outs = s.outs := rfl
@[simp] theorem setPar_mem (p : Param) (i v : Nat) : (s.setPar p i v).mem = s.mem := rfl
@[simp] theorem setPar_out (p : Param) (i v : Nat) : (s.setPar p i v).out = s.out := rfl
@[simp] theorem setPar_wstatus (p : Param) (i v : Nat) : (s.setPar p i v).wstatus = s.wstatus := rfl
@[simp] theorem setPar_free (p : Param) (i v : Nat) : (s.setPar p i v).free = s.free := rfl

@[simp] theorem writeMem_pending (a : Nat) (b : Bytes) : (s.writeMem a b).pending = s.pending := rfl
@[simp] theorem writeMem_time (a : Nat) (b : Bytes) : (s.writeMem a b).time = s.time := rfl
@[simp] theorem writeMem_boot (a : Nat) (b : Bytes) : (s.writeMem a b).boot = s.boot := rfl
@[simp] theorem writeMem_clk (a : Nat) (b : Bytes) : (s.writeMem a b).clk = s.clk := rfl
@[simp] theorem writeMem_regs (a : Nat) (b : Bytes) : (s.writeMem a b).regs = s.regs := rfl
@[simp] theorem writeMem_tick (a : Nat) (b : Bytes) : (s.writeMem a b).tick = s.tick := rfl
@[simp] theorem writeMem_seq (a : Nat) (b : Bytes) : (s.writeMem a b).seq = s.seq := rfl
@[simp] theorem writeMem_scene (a : Nat) (b : Bytes) : (s.writeMem a b).scene = s.scene := rfl
@[simp] theorem writeMem_frames (a : Nat) (b : Bytes) : (s.writeMem a b).frames = s.frames := rfl
@[simp] theorem writeMem_tiles (a : Nat) (b : Bytes) : (s.writeMem a b).tiles = s.tiles := rfl
@[simp] theorem writeMem_drift (a : Nat) (b : Bytes) : (s.writeMem a b).drift = s.drift := rfl
@[simp] theorem writeMem_hk (a : Nat) (b : Bytes) : (s.writeMem a b).hk = s.hk := rfl
@[simp] theorem writeMem_thm (a : Nat) (b : Bytes) : (s.writeMem a b).thm = s.thm := rfl
@[simp] theorem writeMem_bundle (a : Nat) (b : Bytes) : (s.writeMem a b).bundle = s.bundle := rfl
@[simp] theorem writeMem_session (a : Nat) (b : Bytes) : (s.writeMem a b).session = s.session := rfl
@[simp] theorem writeMem_act (a : Nat) (b : Bytes) : (s.writeMem a b).act = s.act := rfl
@[simp] theorem writeMem_held (a : Nat) (b : Bytes) : (s.writeMem a b).held = s.held := rfl
@[simp] theorem writeMem_history (a : Nat) (b : Bytes) : (s.writeMem a b).history = s.history := rfl
@[simp] theorem writeMem_ctxs (a : Nat) (b : Bytes) : (s.writeMem a b).ctxs = s.ctxs := rfl
@[simp] theorem writeMem_gens (a : Nat) (b : Bytes) : (s.writeMem a b).gens = s.gens := rfl
@[simp] theorem writeMem_fetches (a : Nat) (b : Bytes) : (s.writeMem a b).fetches = s.fetches := rfl
@[simp] theorem writeMem_nv (a : Nat) (b : Bytes) : (s.writeMem a b).nv = s.nv := rfl
@[simp] theorem writeMem_ledger (a : Nat) (b : Bytes) : (s.writeMem a b).ledger = s.ledger := rfl
@[simp] theorem writeMem_sec (a : Nat) (b : Bytes) : (s.writeMem a b).sec = s.sec := rfl
@[simp] theorem writeMem_links (a : Nat) (b : Bytes) : (s.writeMem a b).links = s.links := rfl
@[simp] theorem writeMem_pair (a : Nat) (b : Bytes) : (s.writeMem a b).pair = s.pair := rfl
@[simp] theorem writeMem_perf (a : Nat) (b : Bytes) : (s.writeMem a b).perf = s.perf := rfl
@[simp] theorem writeMem_dbg (a : Nat) (b : Bytes) : (s.writeMem a b).dbg = s.dbg := rfl
@[simp] theorem writeMem_aux (a : Nat) (b : Bytes) : (s.writeMem a b).aux = s.aux := rfl
@[simp] theorem writeMem_pegs (a : Nat) (b : Bytes) : (s.writeMem a b).pegs = s.pegs := rfl
@[simp] theorem writeMem_pins (a : Nat) (b : Bytes) : (s.writeMem a b).pins = s.pins := rfl
@[simp] theorem writeMem_outs (a : Nat) (b : Bytes) : (s.writeMem a b).outs = s.outs := rfl
@[simp] theorem writeMem_out (a : Nat) (b : Bytes) : (s.writeMem a b).out = s.out := rfl
@[simp] theorem writeMem_wstatus (a : Nat) (b : Bytes) : (s.writeMem a b).wstatus = s.wstatus := rfl
@[simp] theorem writeMem_free (a : Nat) (b : Bytes) : (s.writeMem a b).free = s.free := rfl

@[simp] theorem clearMem_pending (a n : Nat) : (s.clearMem a n).pending = s.pending := rfl
@[simp] theorem clearMem_time (a n : Nat) : (s.clearMem a n).time = s.time := rfl
@[simp] theorem clearMem_boot (a n : Nat) : (s.clearMem a n).boot = s.boot := rfl
@[simp] theorem clearMem_clk (a n : Nat) : (s.clearMem a n).clk = s.clk := rfl
@[simp] theorem clearMem_regs (a n : Nat) : (s.clearMem a n).regs = s.regs := rfl
@[simp] theorem clearMem_tick (a n : Nat) : (s.clearMem a n).tick = s.tick := rfl
@[simp] theorem clearMem_seq (a n : Nat) : (s.clearMem a n).seq = s.seq := rfl
@[simp] theorem clearMem_scene (a n : Nat) : (s.clearMem a n).scene = s.scene := rfl
@[simp] theorem clearMem_frames (a n : Nat) : (s.clearMem a n).frames = s.frames := rfl
@[simp] theorem clearMem_tiles (a n : Nat) : (s.clearMem a n).tiles = s.tiles := rfl
@[simp] theorem clearMem_drift (a n : Nat) : (s.clearMem a n).drift = s.drift := rfl
@[simp] theorem clearMem_hk (a n : Nat) : (s.clearMem a n).hk = s.hk := rfl
@[simp] theorem clearMem_thm (a n : Nat) : (s.clearMem a n).thm = s.thm := rfl
@[simp] theorem clearMem_bundle (a n : Nat) : (s.clearMem a n).bundle = s.bundle := rfl
@[simp] theorem clearMem_session (a n : Nat) : (s.clearMem a n).session = s.session := rfl
@[simp] theorem clearMem_act (a n : Nat) : (s.clearMem a n).act = s.act := rfl
@[simp] theorem clearMem_held (a n : Nat) : (s.clearMem a n).held = s.held := rfl
@[simp] theorem clearMem_history (a n : Nat) : (s.clearMem a n).history = s.history := rfl
@[simp] theorem clearMem_ctxs (a n : Nat) : (s.clearMem a n).ctxs = s.ctxs := rfl
@[simp] theorem clearMem_gens (a n : Nat) : (s.clearMem a n).gens = s.gens := rfl
@[simp] theorem clearMem_fetches (a n : Nat) : (s.clearMem a n).fetches = s.fetches := rfl
@[simp] theorem clearMem_nv (a n : Nat) : (s.clearMem a n).nv = s.nv := rfl
@[simp] theorem clearMem_ledger (a n : Nat) : (s.clearMem a n).ledger = s.ledger := rfl
@[simp] theorem clearMem_sec (a n : Nat) : (s.clearMem a n).sec = s.sec := rfl
@[simp] theorem clearMem_links (a n : Nat) : (s.clearMem a n).links = s.links := rfl
@[simp] theorem clearMem_pair (a n : Nat) : (s.clearMem a n).pair = s.pair := rfl
@[simp] theorem clearMem_perf (a n : Nat) : (s.clearMem a n).perf = s.perf := rfl
@[simp] theorem clearMem_dbg (a n : Nat) : (s.clearMem a n).dbg = s.dbg := rfl
@[simp] theorem clearMem_aux (a n : Nat) : (s.clearMem a n).aux = s.aux := rfl
@[simp] theorem clearMem_pegs (a n : Nat) : (s.clearMem a n).pegs = s.pegs := rfl
@[simp] theorem clearMem_pins (a n : Nat) : (s.clearMem a n).pins = s.pins := rfl
@[simp] theorem clearMem_outs (a n : Nat) : (s.clearMem a n).outs = s.outs := rfl
@[simp] theorem clearMem_out (a n : Nat) : (s.clearMem a n).out = s.out := rfl
@[simp] theorem clearMem_wstatus (a n : Nat) : (s.clearMem a n).wstatus = s.wstatus := rfl
@[simp] theorem clearMem_free (a n : Nat) : (s.clearMem a n).free = s.free := rfl

@[simp] theorem modCtx_pending (x : Ctx) (f : Context → Context) : (s.modCtx x f).pending = s.pending := rfl
@[simp] theorem modCtx_time (x : Ctx) (f : Context → Context) : (s.modCtx x f).time = s.time := rfl
@[simp] theorem modCtx_boot (x : Ctx) (f : Context → Context) : (s.modCtx x f).boot = s.boot := rfl
@[simp] theorem modCtx_clk (x : Ctx) (f : Context → Context) : (s.modCtx x f).clk = s.clk := rfl
@[simp] theorem modCtx_regs (x : Ctx) (f : Context → Context) : (s.modCtx x f).regs = s.regs := rfl
@[simp] theorem modCtx_tick (x : Ctx) (f : Context → Context) : (s.modCtx x f).tick = s.tick := rfl
@[simp] theorem modCtx_seq (x : Ctx) (f : Context → Context) : (s.modCtx x f).seq = s.seq := rfl
@[simp] theorem modCtx_scene (x : Ctx) (f : Context → Context) : (s.modCtx x f).scene = s.scene := rfl
@[simp] theorem modCtx_frames (x : Ctx) (f : Context → Context) : (s.modCtx x f).frames = s.frames := rfl
@[simp] theorem modCtx_tiles (x : Ctx) (f : Context → Context) : (s.modCtx x f).tiles = s.tiles := rfl
@[simp] theorem modCtx_drift (x : Ctx) (f : Context → Context) : (s.modCtx x f).drift = s.drift := rfl
@[simp] theorem modCtx_hk (x : Ctx) (f : Context → Context) : (s.modCtx x f).hk = s.hk := rfl
@[simp] theorem modCtx_thm (x : Ctx) (f : Context → Context) : (s.modCtx x f).thm = s.thm := rfl
@[simp] theorem modCtx_bundle (x : Ctx) (f : Context → Context) : (s.modCtx x f).bundle = s.bundle := rfl
@[simp] theorem modCtx_session (x : Ctx) (f : Context → Context) : (s.modCtx x f).session = s.session := rfl
@[simp] theorem modCtx_act (x : Ctx) (f : Context → Context) : (s.modCtx x f).act = s.act := rfl
@[simp] theorem modCtx_held (x : Ctx) (f : Context → Context) : (s.modCtx x f).held = s.held := rfl
@[simp] theorem modCtx_history (x : Ctx) (f : Context → Context) : (s.modCtx x f).history = s.history := rfl
@[simp] theorem modCtx_ctxs (x : Ctx) (f : Context → Context) : (s.modCtx x f).ctxs = s.ctxs.modify x.val f := rfl
@[simp] theorem modCtx_gens (x : Ctx) (f : Context → Context) : (s.modCtx x f).gens = s.gens := rfl
@[simp] theorem modCtx_fetches (x : Ctx) (f : Context → Context) : (s.modCtx x f).fetches = s.fetches := rfl
@[simp] theorem modCtx_nv (x : Ctx) (f : Context → Context) : (s.modCtx x f).nv = s.nv := rfl
@[simp] theorem modCtx_ledger (x : Ctx) (f : Context → Context) : (s.modCtx x f).ledger = s.ledger := rfl
@[simp] theorem modCtx_sec (x : Ctx) (f : Context → Context) : (s.modCtx x f).sec = s.sec := rfl
@[simp] theorem modCtx_links (x : Ctx) (f : Context → Context) : (s.modCtx x f).links = s.links := rfl
@[simp] theorem modCtx_pair (x : Ctx) (f : Context → Context) : (s.modCtx x f).pair = s.pair := rfl
@[simp] theorem modCtx_perf (x : Ctx) (f : Context → Context) : (s.modCtx x f).perf = s.perf := rfl
@[simp] theorem modCtx_dbg (x : Ctx) (f : Context → Context) : (s.modCtx x f).dbg = s.dbg := rfl
@[simp] theorem modCtx_aux (x : Ctx) (f : Context → Context) : (s.modCtx x f).aux = s.aux := rfl
@[simp] theorem modCtx_pegs (x : Ctx) (f : Context → Context) : (s.modCtx x f).pegs = s.pegs := rfl
@[simp] theorem modCtx_pins (x : Ctx) (f : Context → Context) : (s.modCtx x f).pins = s.pins := rfl
@[simp] theorem modCtx_outs (x : Ctx) (f : Context → Context) : (s.modCtx x f).outs = s.outs := rfl
@[simp] theorem modCtx_mem (x : Ctx) (f : Context → Context) : (s.modCtx x f).mem = s.mem := rfl
@[simp] theorem modCtx_out (x : Ctx) (f : Context → Context) : (s.modCtx x f).out = s.out := rfl
@[simp] theorem modCtx_wstatus (x : Ctx) (f : Context → Context) : (s.modCtx x f).wstatus = s.wstatus := rfl
@[simp] theorem modCtx_free (x : Ctx) (f : Context → Context) : (s.modCtx x f).free = s.free := rfl

@[simp] theorem modTile_pending (t : Tile) (f : TileSt → TileSt) : (s.modTile t f).pending = s.pending := rfl
@[simp] theorem modTile_time (t : Tile) (f : TileSt → TileSt) : (s.modTile t f).time = s.time := rfl
@[simp] theorem modTile_boot (t : Tile) (f : TileSt → TileSt) : (s.modTile t f).boot = s.boot := rfl
@[simp] theorem modTile_clk (t : Tile) (f : TileSt → TileSt) : (s.modTile t f).clk = s.clk := rfl
@[simp] theorem modTile_regs (t : Tile) (f : TileSt → TileSt) : (s.modTile t f).regs = s.regs := rfl
@[simp] theorem modTile_tick (t : Tile) (f : TileSt → TileSt) : (s.modTile t f).tick = s.tick := rfl
@[simp] theorem modTile_seq (t : Tile) (f : TileSt → TileSt) : (s.modTile t f).seq = s.seq := rfl
@[simp] theorem modTile_scene (t : Tile) (f : TileSt → TileSt) : (s.modTile t f).scene = s.scene := rfl
@[simp] theorem modTile_frames (t : Tile) (f : TileSt → TileSt) : (s.modTile t f).frames = s.frames := rfl
@[simp] theorem modTile_tiles (t : Tile) (f : TileSt → TileSt) : (s.modTile t f).tiles = s.tiles.modify t.val f := rfl
@[simp] theorem modTile_drift (t : Tile) (f : TileSt → TileSt) : (s.modTile t f).drift = s.drift := rfl
@[simp] theorem modTile_hk (t : Tile) (f : TileSt → TileSt) : (s.modTile t f).hk = s.hk := rfl
@[simp] theorem modTile_thm (t : Tile) (f : TileSt → TileSt) : (s.modTile t f).thm = s.thm := rfl
@[simp] theorem modTile_bundle (t : Tile) (f : TileSt → TileSt) : (s.modTile t f).bundle = s.bundle := rfl
@[simp] theorem modTile_session (t : Tile) (f : TileSt → TileSt) : (s.modTile t f).session = s.session := rfl
@[simp] theorem modTile_act (t : Tile) (f : TileSt → TileSt) : (s.modTile t f).act = s.act := rfl
@[simp] theorem modTile_held (t : Tile) (f : TileSt → TileSt) : (s.modTile t f).held = s.held := rfl
@[simp] theorem modTile_history (t : Tile) (f : TileSt → TileSt) : (s.modTile t f).history = s.history := rfl
@[simp] theorem modTile_ctxs (t : Tile) (f : TileSt → TileSt) : (s.modTile t f).ctxs = s.ctxs := rfl
@[simp] theorem modTile_gens (t : Tile) (f : TileSt → TileSt) : (s.modTile t f).gens = s.gens := rfl
@[simp] theorem modTile_fetches (t : Tile) (f : TileSt → TileSt) : (s.modTile t f).fetches = s.fetches := rfl
@[simp] theorem modTile_nv (t : Tile) (f : TileSt → TileSt) : (s.modTile t f).nv = s.nv := rfl
@[simp] theorem modTile_ledger (t : Tile) (f : TileSt → TileSt) : (s.modTile t f).ledger = s.ledger := rfl
@[simp] theorem modTile_sec (t : Tile) (f : TileSt → TileSt) : (s.modTile t f).sec = s.sec := rfl
@[simp] theorem modTile_links (t : Tile) (f : TileSt → TileSt) : (s.modTile t f).links = s.links := rfl
@[simp] theorem modTile_pair (t : Tile) (f : TileSt → TileSt) : (s.modTile t f).pair = s.pair := rfl
@[simp] theorem modTile_perf (t : Tile) (f : TileSt → TileSt) : (s.modTile t f).perf = s.perf := rfl
@[simp] theorem modTile_dbg (t : Tile) (f : TileSt → TileSt) : (s.modTile t f).dbg = s.dbg := rfl
@[simp] theorem modTile_aux (t : Tile) (f : TileSt → TileSt) : (s.modTile t f).aux = s.aux := rfl
@[simp] theorem modTile_pegs (t : Tile) (f : TileSt → TileSt) : (s.modTile t f).pegs = s.pegs := rfl
@[simp] theorem modTile_pins (t : Tile) (f : TileSt → TileSt) : (s.modTile t f).pins = s.pins := rfl
@[simp] theorem modTile_outs (t : Tile) (f : TileSt → TileSt) : (s.modTile t f).outs = s.outs := rfl
@[simp] theorem modTile_mem (t : Tile) (f : TileSt → TileSt) : (s.modTile t f).mem = s.mem := rfl
@[simp] theorem modTile_out (t : Tile) (f : TileSt → TileSt) : (s.modTile t f).out = s.out := rfl
@[simp] theorem modTile_wstatus (t : Tile) (f : TileSt → TileSt) : (s.modTile t f).wstatus = s.wstatus := rfl
@[simp] theorem modTile_free (t : Tile) (f : TileSt → TileSt) : (s.modTile t f).free = s.free := rfl

@[simp] theorem modDrift_pending (t : Tile) (f : Drift → Drift) : (s.modDrift t f).pending = s.pending := rfl
@[simp] theorem modDrift_time (t : Tile) (f : Drift → Drift) : (s.modDrift t f).time = s.time := rfl
@[simp] theorem modDrift_boot (t : Tile) (f : Drift → Drift) : (s.modDrift t f).boot = s.boot := rfl
@[simp] theorem modDrift_clk (t : Tile) (f : Drift → Drift) : (s.modDrift t f).clk = s.clk := rfl
@[simp] theorem modDrift_regs (t : Tile) (f : Drift → Drift) : (s.modDrift t f).regs = s.regs := rfl
@[simp] theorem modDrift_tick (t : Tile) (f : Drift → Drift) : (s.modDrift t f).tick = s.tick := rfl
@[simp] theorem modDrift_seq (t : Tile) (f : Drift → Drift) : (s.modDrift t f).seq = s.seq := rfl
@[simp] theorem modDrift_scene (t : Tile) (f : Drift → Drift) : (s.modDrift t f).scene = s.scene := rfl
@[simp] theorem modDrift_frames (t : Tile) (f : Drift → Drift) : (s.modDrift t f).frames = s.frames := rfl
@[simp] theorem modDrift_tiles (t : Tile) (f : Drift → Drift) : (s.modDrift t f).tiles = s.tiles := rfl
@[simp] theorem modDrift_drift (t : Tile) (f : Drift → Drift) : (s.modDrift t f).drift = s.drift.modify t.val f := rfl
@[simp] theorem modDrift_hk (t : Tile) (f : Drift → Drift) : (s.modDrift t f).hk = s.hk := rfl
@[simp] theorem modDrift_thm (t : Tile) (f : Drift → Drift) : (s.modDrift t f).thm = s.thm := rfl
@[simp] theorem modDrift_bundle (t : Tile) (f : Drift → Drift) : (s.modDrift t f).bundle = s.bundle := rfl
@[simp] theorem modDrift_session (t : Tile) (f : Drift → Drift) : (s.modDrift t f).session = s.session := rfl
@[simp] theorem modDrift_act (t : Tile) (f : Drift → Drift) : (s.modDrift t f).act = s.act := rfl
@[simp] theorem modDrift_held (t : Tile) (f : Drift → Drift) : (s.modDrift t f).held = s.held := rfl
@[simp] theorem modDrift_history (t : Tile) (f : Drift → Drift) : (s.modDrift t f).history = s.history := rfl
@[simp] theorem modDrift_ctxs (t : Tile) (f : Drift → Drift) : (s.modDrift t f).ctxs = s.ctxs := rfl
@[simp] theorem modDrift_gens (t : Tile) (f : Drift → Drift) : (s.modDrift t f).gens = s.gens := rfl
@[simp] theorem modDrift_fetches (t : Tile) (f : Drift → Drift) : (s.modDrift t f).fetches = s.fetches := rfl
@[simp] theorem modDrift_nv (t : Tile) (f : Drift → Drift) : (s.modDrift t f).nv = s.nv := rfl
@[simp] theorem modDrift_ledger (t : Tile) (f : Drift → Drift) : (s.modDrift t f).ledger = s.ledger := rfl
@[simp] theorem modDrift_sec (t : Tile) (f : Drift → Drift) : (s.modDrift t f).sec = s.sec := rfl
@[simp] theorem modDrift_links (t : Tile) (f : Drift → Drift) : (s.modDrift t f).links = s.links := rfl
@[simp] theorem modDrift_pair (t : Tile) (f : Drift → Drift) : (s.modDrift t f).pair = s.pair := rfl
@[simp] theorem modDrift_perf (t : Tile) (f : Drift → Drift) : (s.modDrift t f).perf = s.perf := rfl
@[simp] theorem modDrift_dbg (t : Tile) (f : Drift → Drift) : (s.modDrift t f).dbg = s.dbg := rfl
@[simp] theorem modDrift_aux (t : Tile) (f : Drift → Drift) : (s.modDrift t f).aux = s.aux := rfl
@[simp] theorem modDrift_pegs (t : Tile) (f : Drift → Drift) : (s.modDrift t f).pegs = s.pegs := rfl
@[simp] theorem modDrift_pins (t : Tile) (f : Drift → Drift) : (s.modDrift t f).pins = s.pins := rfl
@[simp] theorem modDrift_outs (t : Tile) (f : Drift → Drift) : (s.modDrift t f).outs = s.outs := rfl
@[simp] theorem modDrift_mem (t : Tile) (f : Drift → Drift) : (s.modDrift t f).mem = s.mem := rfl
@[simp] theorem modDrift_out (t : Tile) (f : Drift → Drift) : (s.modDrift t f).out = s.out := rfl
@[simp] theorem modDrift_wstatus (t : Tile) (f : Drift → Drift) : (s.modDrift t f).wstatus = s.wstatus := rfl
@[simp] theorem modDrift_free (t : Tile) (f : Drift → Drift) : (s.modDrift t f).free = s.free := rfl

@[simp] theorem modPeg_pending (n : Nat) (f : Peg → Peg) : (s.modPeg n f).pending = s.pending := rfl
@[simp] theorem modPeg_time (n : Nat) (f : Peg → Peg) : (s.modPeg n f).time = s.time := rfl
@[simp] theorem modPeg_boot (n : Nat) (f : Peg → Peg) : (s.modPeg n f).boot = s.boot := rfl
@[simp] theorem modPeg_clk (n : Nat) (f : Peg → Peg) : (s.modPeg n f).clk = s.clk := rfl
@[simp] theorem modPeg_regs (n : Nat) (f : Peg → Peg) : (s.modPeg n f).regs = s.regs := rfl
@[simp] theorem modPeg_tick (n : Nat) (f : Peg → Peg) : (s.modPeg n f).tick = s.tick := rfl
@[simp] theorem modPeg_seq (n : Nat) (f : Peg → Peg) : (s.modPeg n f).seq = s.seq := rfl
@[simp] theorem modPeg_scene (n : Nat) (f : Peg → Peg) : (s.modPeg n f).scene = s.scene := rfl
@[simp] theorem modPeg_frames (n : Nat) (f : Peg → Peg) : (s.modPeg n f).frames = s.frames := rfl
@[simp] theorem modPeg_tiles (n : Nat) (f : Peg → Peg) : (s.modPeg n f).tiles = s.tiles := rfl
@[simp] theorem modPeg_drift (n : Nat) (f : Peg → Peg) : (s.modPeg n f).drift = s.drift := rfl
@[simp] theorem modPeg_hk (n : Nat) (f : Peg → Peg) : (s.modPeg n f).hk = s.hk := rfl
@[simp] theorem modPeg_thm (n : Nat) (f : Peg → Peg) : (s.modPeg n f).thm = s.thm := rfl
@[simp] theorem modPeg_bundle (n : Nat) (f : Peg → Peg) : (s.modPeg n f).bundle = s.bundle := rfl
@[simp] theorem modPeg_session (n : Nat) (f : Peg → Peg) : (s.modPeg n f).session = s.session := rfl
@[simp] theorem modPeg_act (n : Nat) (f : Peg → Peg) : (s.modPeg n f).act = s.act := rfl
@[simp] theorem modPeg_held (n : Nat) (f : Peg → Peg) : (s.modPeg n f).held = s.held := rfl
@[simp] theorem modPeg_history (n : Nat) (f : Peg → Peg) : (s.modPeg n f).history = s.history := rfl
@[simp] theorem modPeg_ctxs (n : Nat) (f : Peg → Peg) : (s.modPeg n f).ctxs = s.ctxs := rfl
@[simp] theorem modPeg_gens (n : Nat) (f : Peg → Peg) : (s.modPeg n f).gens = s.gens := rfl
@[simp] theorem modPeg_fetches (n : Nat) (f : Peg → Peg) : (s.modPeg n f).fetches = s.fetches := rfl
@[simp] theorem modPeg_nv (n : Nat) (f : Peg → Peg) : (s.modPeg n f).nv = s.nv := rfl
@[simp] theorem modPeg_ledger (n : Nat) (f : Peg → Peg) : (s.modPeg n f).ledger = s.ledger := rfl
@[simp] theorem modPeg_sec (n : Nat) (f : Peg → Peg) : (s.modPeg n f).sec = s.sec := rfl
@[simp] theorem modPeg_links (n : Nat) (f : Peg → Peg) : (s.modPeg n f).links = s.links := rfl
@[simp] theorem modPeg_pair (n : Nat) (f : Peg → Peg) : (s.modPeg n f).pair = s.pair := rfl
@[simp] theorem modPeg_perf (n : Nat) (f : Peg → Peg) : (s.modPeg n f).perf = s.perf := rfl
@[simp] theorem modPeg_dbg (n : Nat) (f : Peg → Peg) : (s.modPeg n f).dbg = s.dbg := rfl
@[simp] theorem modPeg_aux (n : Nat) (f : Peg → Peg) : (s.modPeg n f).aux = s.aux := rfl
@[simp] theorem modPeg_pegs (n : Nat) (f : Peg → Peg) : (s.modPeg n f).pegs = s.pegs.modify n f := rfl
@[simp] theorem modPeg_pins (n : Nat) (f : Peg → Peg) : (s.modPeg n f).pins = s.pins := rfl
@[simp] theorem modPeg_outs (n : Nat) (f : Peg → Peg) : (s.modPeg n f).outs = s.outs := rfl
@[simp] theorem modPeg_mem (n : Nat) (f : Peg → Peg) : (s.modPeg n f).mem = s.mem := rfl
@[simp] theorem modPeg_out (n : Nat) (f : Peg → Peg) : (s.modPeg n f).out = s.out := rfl
@[simp] theorem modPeg_wstatus (n : Nat) (f : Peg → Peg) : (s.modPeg n f).wstatus = s.wstatus := rfl
@[simp] theorem modPeg_free (n : Nat) (f : Peg → Peg) : (s.modPeg n f).free = s.free := rfl

@[simp] theorem modHk_pending (f : Hk → Hk) : (s.modHk f).pending = s.pending := rfl
@[simp] theorem modHk_time (f : Hk → Hk) : (s.modHk f).time = s.time := rfl
@[simp] theorem modHk_boot (f : Hk → Hk) : (s.modHk f).boot = s.boot := rfl
@[simp] theorem modHk_clk (f : Hk → Hk) : (s.modHk f).clk = s.clk := rfl
@[simp] theorem modHk_regs (f : Hk → Hk) : (s.modHk f).regs = s.regs := rfl
@[simp] theorem modHk_tick (f : Hk → Hk) : (s.modHk f).tick = s.tick := rfl
@[simp] theorem modHk_seq (f : Hk → Hk) : (s.modHk f).seq = s.seq := rfl
@[simp] theorem modHk_scene (f : Hk → Hk) : (s.modHk f).scene = s.scene := rfl
@[simp] theorem modHk_frames (f : Hk → Hk) : (s.modHk f).frames = s.frames := rfl
@[simp] theorem modHk_tiles (f : Hk → Hk) : (s.modHk f).tiles = s.tiles := rfl
@[simp] theorem modHk_drift (f : Hk → Hk) : (s.modHk f).drift = s.drift := rfl
@[simp] theorem modHk_hk (f : Hk → Hk) : (s.modHk f).hk = f s.hk := rfl
@[simp] theorem modHk_thm (f : Hk → Hk) : (s.modHk f).thm = s.thm := rfl
@[simp] theorem modHk_bundle (f : Hk → Hk) : (s.modHk f).bundle = s.bundle := rfl
@[simp] theorem modHk_session (f : Hk → Hk) : (s.modHk f).session = s.session := rfl
@[simp] theorem modHk_act (f : Hk → Hk) : (s.modHk f).act = s.act := rfl
@[simp] theorem modHk_held (f : Hk → Hk) : (s.modHk f).held = s.held := rfl
@[simp] theorem modHk_history (f : Hk → Hk) : (s.modHk f).history = s.history := rfl
@[simp] theorem modHk_ctxs (f : Hk → Hk) : (s.modHk f).ctxs = s.ctxs := rfl
@[simp] theorem modHk_gens (f : Hk → Hk) : (s.modHk f).gens = s.gens := rfl
@[simp] theorem modHk_fetches (f : Hk → Hk) : (s.modHk f).fetches = s.fetches := rfl
@[simp] theorem modHk_nv (f : Hk → Hk) : (s.modHk f).nv = s.nv := rfl
@[simp] theorem modHk_ledger (f : Hk → Hk) : (s.modHk f).ledger = s.ledger := rfl
@[simp] theorem modHk_sec (f : Hk → Hk) : (s.modHk f).sec = s.sec := rfl
@[simp] theorem modHk_links (f : Hk → Hk) : (s.modHk f).links = s.links := rfl
@[simp] theorem modHk_pair (f : Hk → Hk) : (s.modHk f).pair = s.pair := rfl
@[simp] theorem modHk_perf (f : Hk → Hk) : (s.modHk f).perf = s.perf := rfl
@[simp] theorem modHk_dbg (f : Hk → Hk) : (s.modHk f).dbg = s.dbg := rfl
@[simp] theorem modHk_aux (f : Hk → Hk) : (s.modHk f).aux = s.aux := rfl
@[simp] theorem modHk_pegs (f : Hk → Hk) : (s.modHk f).pegs = s.pegs := rfl
@[simp] theorem modHk_pins (f : Hk → Hk) : (s.modHk f).pins = s.pins := rfl
@[simp] theorem modHk_outs (f : Hk → Hk) : (s.modHk f).outs = s.outs := rfl
@[simp] theorem modHk_mem (f : Hk → Hk) : (s.modHk f).mem = s.mem := rfl
@[simp] theorem modHk_out (f : Hk → Hk) : (s.modHk f).out = s.out := rfl
@[simp] theorem modHk_wstatus (f : Hk → Hk) : (s.modHk f).wstatus = s.wstatus := rfl
@[simp] theorem modHk_free (f : Hk → Hk) : (s.modHk f).free = s.free := rfl

@[simp] theorem modThm_pending (f : Thermal → Thermal) : (s.modThm f).pending = s.pending := rfl
@[simp] theorem modThm_time (f : Thermal → Thermal) : (s.modThm f).time = s.time := rfl
@[simp] theorem modThm_boot (f : Thermal → Thermal) : (s.modThm f).boot = s.boot := rfl
@[simp] theorem modThm_clk (f : Thermal → Thermal) : (s.modThm f).clk = s.clk := rfl
@[simp] theorem modThm_regs (f : Thermal → Thermal) : (s.modThm f).regs = s.regs := rfl
@[simp] theorem modThm_tick (f : Thermal → Thermal) : (s.modThm f).tick = s.tick := rfl
@[simp] theorem modThm_seq (f : Thermal → Thermal) : (s.modThm f).seq = s.seq := rfl
@[simp] theorem modThm_scene (f : Thermal → Thermal) : (s.modThm f).scene = s.scene := rfl
@[simp] theorem modThm_frames (f : Thermal → Thermal) : (s.modThm f).frames = s.frames := rfl
@[simp] theorem modThm_tiles (f : Thermal → Thermal) : (s.modThm f).tiles = s.tiles := rfl
@[simp] theorem modThm_drift (f : Thermal → Thermal) : (s.modThm f).drift = s.drift := rfl
@[simp] theorem modThm_hk (f : Thermal → Thermal) : (s.modThm f).hk = s.hk := rfl
@[simp] theorem modThm_thm (f : Thermal → Thermal) : (s.modThm f).thm = f s.thm := rfl
@[simp] theorem modThm_bundle (f : Thermal → Thermal) : (s.modThm f).bundle = s.bundle := rfl
@[simp] theorem modThm_session (f : Thermal → Thermal) : (s.modThm f).session = s.session := rfl
@[simp] theorem modThm_act (f : Thermal → Thermal) : (s.modThm f).act = s.act := rfl
@[simp] theorem modThm_held (f : Thermal → Thermal) : (s.modThm f).held = s.held := rfl
@[simp] theorem modThm_history (f : Thermal → Thermal) : (s.modThm f).history = s.history := rfl
@[simp] theorem modThm_ctxs (f : Thermal → Thermal) : (s.modThm f).ctxs = s.ctxs := rfl
@[simp] theorem modThm_gens (f : Thermal → Thermal) : (s.modThm f).gens = s.gens := rfl
@[simp] theorem modThm_fetches (f : Thermal → Thermal) : (s.modThm f).fetches = s.fetches := rfl
@[simp] theorem modThm_nv (f : Thermal → Thermal) : (s.modThm f).nv = s.nv := rfl
@[simp] theorem modThm_ledger (f : Thermal → Thermal) : (s.modThm f).ledger = s.ledger := rfl
@[simp] theorem modThm_sec (f : Thermal → Thermal) : (s.modThm f).sec = s.sec := rfl
@[simp] theorem modThm_links (f : Thermal → Thermal) : (s.modThm f).links = s.links := rfl
@[simp] theorem modThm_pair (f : Thermal → Thermal) : (s.modThm f).pair = s.pair := rfl
@[simp] theorem modThm_perf (f : Thermal → Thermal) : (s.modThm f).perf = s.perf := rfl
@[simp] theorem modThm_dbg (f : Thermal → Thermal) : (s.modThm f).dbg = s.dbg := rfl
@[simp] theorem modThm_aux (f : Thermal → Thermal) : (s.modThm f).aux = s.aux := rfl
@[simp] theorem modThm_pegs (f : Thermal → Thermal) : (s.modThm f).pegs = s.pegs := rfl
@[simp] theorem modThm_pins (f : Thermal → Thermal) : (s.modThm f).pins = s.pins := rfl
@[simp] theorem modThm_outs (f : Thermal → Thermal) : (s.modThm f).outs = s.outs := rfl
@[simp] theorem modThm_mem (f : Thermal → Thermal) : (s.modThm f).mem = s.mem := rfl
@[simp] theorem modThm_out (f : Thermal → Thermal) : (s.modThm f).out = s.out := rfl
@[simp] theorem modThm_wstatus (f : Thermal → Thermal) : (s.modThm f).wstatus = s.wstatus := rfl
@[simp] theorem modThm_free (f : Thermal → Thermal) : (s.modThm f).free = s.free := rfl

@[simp] theorem modClk_pending (f : Clocks → Clocks) : (s.modClk f).pending = s.pending := rfl
@[simp] theorem modClk_time (f : Clocks → Clocks) : (s.modClk f).time = s.time := rfl
@[simp] theorem modClk_boot (f : Clocks → Clocks) : (s.modClk f).boot = s.boot := rfl
@[simp] theorem modClk_clk (f : Clocks → Clocks) : (s.modClk f).clk = f s.clk := rfl
@[simp] theorem modClk_regs (f : Clocks → Clocks) : (s.modClk f).regs = s.regs := rfl
@[simp] theorem modClk_tick (f : Clocks → Clocks) : (s.modClk f).tick = s.tick := rfl
@[simp] theorem modClk_seq (f : Clocks → Clocks) : (s.modClk f).seq = s.seq := rfl
@[simp] theorem modClk_scene (f : Clocks → Clocks) : (s.modClk f).scene = s.scene := rfl
@[simp] theorem modClk_frames (f : Clocks → Clocks) : (s.modClk f).frames = s.frames := rfl
@[simp] theorem modClk_tiles (f : Clocks → Clocks) : (s.modClk f).tiles = s.tiles := rfl
@[simp] theorem modClk_drift (f : Clocks → Clocks) : (s.modClk f).drift = s.drift := rfl
@[simp] theorem modClk_hk (f : Clocks → Clocks) : (s.modClk f).hk = s.hk := rfl
@[simp] theorem modClk_thm (f : Clocks → Clocks) : (s.modClk f).thm = s.thm := rfl
@[simp] theorem modClk_bundle (f : Clocks → Clocks) : (s.modClk f).bundle = s.bundle := rfl
@[simp] theorem modClk_session (f : Clocks → Clocks) : (s.modClk f).session = s.session := rfl
@[simp] theorem modClk_act (f : Clocks → Clocks) : (s.modClk f).act = s.act := rfl
@[simp] theorem modClk_held (f : Clocks → Clocks) : (s.modClk f).held = s.held := rfl
@[simp] theorem modClk_history (f : Clocks → Clocks) : (s.modClk f).history = s.history := rfl
@[simp] theorem modClk_ctxs (f : Clocks → Clocks) : (s.modClk f).ctxs = s.ctxs := rfl
@[simp] theorem modClk_gens (f : Clocks → Clocks) : (s.modClk f).gens = s.gens := rfl
@[simp] theorem modClk_fetches (f : Clocks → Clocks) : (s.modClk f).fetches = s.fetches := rfl
@[simp] theorem modClk_nv (f : Clocks → Clocks) : (s.modClk f).nv = s.nv := rfl
@[simp] theorem modClk_ledger (f : Clocks → Clocks) : (s.modClk f).ledger = s.ledger := rfl
@[simp] theorem modClk_sec (f : Clocks → Clocks) : (s.modClk f).sec = s.sec := rfl
@[simp] theorem modClk_links (f : Clocks → Clocks) : (s.modClk f).links = s.links := rfl
@[simp] theorem modClk_pair (f : Clocks → Clocks) : (s.modClk f).pair = s.pair := rfl
@[simp] theorem modClk_perf (f : Clocks → Clocks) : (s.modClk f).perf = s.perf := rfl
@[simp] theorem modClk_dbg (f : Clocks → Clocks) : (s.modClk f).dbg = s.dbg := rfl
@[simp] theorem modClk_aux (f : Clocks → Clocks) : (s.modClk f).aux = s.aux := rfl
@[simp] theorem modClk_pegs (f : Clocks → Clocks) : (s.modClk f).pegs = s.pegs := rfl
@[simp] theorem modClk_pins (f : Clocks → Clocks) : (s.modClk f).pins = s.pins := rfl
@[simp] theorem modClk_outs (f : Clocks → Clocks) : (s.modClk f).outs = s.outs := rfl
@[simp] theorem modClk_mem (f : Clocks → Clocks) : (s.modClk f).mem = s.mem := rfl
@[simp] theorem modClk_out (f : Clocks → Clocks) : (s.modClk f).out = s.out := rfl
@[simp] theorem modClk_wstatus (f : Clocks → Clocks) : (s.modClk f).wstatus = s.wstatus := rfl
@[simp] theorem modClk_free (f : Clocks → Clocks) : (s.modClk f).free = s.free := rfl

@[simp] theorem modNv_pending (f : Nv → Nv) : (s.modNv f).pending = s.pending := rfl
@[simp] theorem modNv_time (f : Nv → Nv) : (s.modNv f).time = s.time := rfl
@[simp] theorem modNv_boot (f : Nv → Nv) : (s.modNv f).boot = s.boot := rfl
@[simp] theorem modNv_clk (f : Nv → Nv) : (s.modNv f).clk = s.clk := rfl
@[simp] theorem modNv_regs (f : Nv → Nv) : (s.modNv f).regs = s.regs := rfl
@[simp] theorem modNv_tick (f : Nv → Nv) : (s.modNv f).tick = s.tick := rfl
@[simp] theorem modNv_seq (f : Nv → Nv) : (s.modNv f).seq = s.seq := rfl
@[simp] theorem modNv_scene (f : Nv → Nv) : (s.modNv f).scene = s.scene := rfl
@[simp] theorem modNv_frames (f : Nv → Nv) : (s.modNv f).frames = s.frames := rfl
@[simp] theorem modNv_tiles (f : Nv → Nv) : (s.modNv f).tiles = s.tiles := rfl
@[simp] theorem modNv_drift (f : Nv → Nv) : (s.modNv f).drift = s.drift := rfl
@[simp] theorem modNv_hk (f : Nv → Nv) : (s.modNv f).hk = s.hk := rfl
@[simp] theorem modNv_thm (f : Nv → Nv) : (s.modNv f).thm = s.thm := rfl
@[simp] theorem modNv_bundle (f : Nv → Nv) : (s.modNv f).bundle = s.bundle := rfl
@[simp] theorem modNv_session (f : Nv → Nv) : (s.modNv f).session = s.session := rfl
@[simp] theorem modNv_act (f : Nv → Nv) : (s.modNv f).act = s.act := rfl
@[simp] theorem modNv_held (f : Nv → Nv) : (s.modNv f).held = s.held := rfl
@[simp] theorem modNv_history (f : Nv → Nv) : (s.modNv f).history = s.history := rfl
@[simp] theorem modNv_ctxs (f : Nv → Nv) : (s.modNv f).ctxs = s.ctxs := rfl
@[simp] theorem modNv_gens (f : Nv → Nv) : (s.modNv f).gens = s.gens := rfl
@[simp] theorem modNv_fetches (f : Nv → Nv) : (s.modNv f).fetches = s.fetches := rfl
@[simp] theorem modNv_nv (f : Nv → Nv) : (s.modNv f).nv = f s.nv := rfl
@[simp] theorem modNv_ledger (f : Nv → Nv) : (s.modNv f).ledger = s.ledger := rfl
@[simp] theorem modNv_sec (f : Nv → Nv) : (s.modNv f).sec = s.sec := rfl
@[simp] theorem modNv_links (f : Nv → Nv) : (s.modNv f).links = s.links := rfl
@[simp] theorem modNv_pair (f : Nv → Nv) : (s.modNv f).pair = s.pair := rfl
@[simp] theorem modNv_perf (f : Nv → Nv) : (s.modNv f).perf = s.perf := rfl
@[simp] theorem modNv_dbg (f : Nv → Nv) : (s.modNv f).dbg = s.dbg := rfl
@[simp] theorem modNv_aux (f : Nv → Nv) : (s.modNv f).aux = s.aux := rfl
@[simp] theorem modNv_pegs (f : Nv → Nv) : (s.modNv f).pegs = s.pegs := rfl
@[simp] theorem modNv_pins (f : Nv → Nv) : (s.modNv f).pins = s.pins := rfl
@[simp] theorem modNv_outs (f : Nv → Nv) : (s.modNv f).outs = s.outs := rfl
@[simp] theorem modNv_mem (f : Nv → Nv) : (s.modNv f).mem = s.mem := rfl
@[simp] theorem modNv_out (f : Nv → Nv) : (s.modNv f).out = s.out := rfl
@[simp] theorem modNv_wstatus (f : Nv → Nv) : (s.modNv f).wstatus = s.wstatus := rfl
@[simp] theorem modNv_free (f : Nv → Nv) : (s.modNv f).free = s.free := rfl

@[simp] theorem modLedger_pending (f : Ledger → Ledger) : (s.modLedger f).pending = s.pending := rfl
@[simp] theorem modLedger_time (f : Ledger → Ledger) : (s.modLedger f).time = s.time := rfl
@[simp] theorem modLedger_boot (f : Ledger → Ledger) : (s.modLedger f).boot = s.boot := rfl
@[simp] theorem modLedger_clk (f : Ledger → Ledger) : (s.modLedger f).clk = s.clk := rfl
@[simp] theorem modLedger_regs (f : Ledger → Ledger) : (s.modLedger f).regs = s.regs := rfl
@[simp] theorem modLedger_tick (f : Ledger → Ledger) : (s.modLedger f).tick = s.tick := rfl
@[simp] theorem modLedger_seq (f : Ledger → Ledger) : (s.modLedger f).seq = s.seq := rfl
@[simp] theorem modLedger_scene (f : Ledger → Ledger) : (s.modLedger f).scene = s.scene := rfl
@[simp] theorem modLedger_frames (f : Ledger → Ledger) : (s.modLedger f).frames = s.frames := rfl
@[simp] theorem modLedger_tiles (f : Ledger → Ledger) : (s.modLedger f).tiles = s.tiles := rfl
@[simp] theorem modLedger_drift (f : Ledger → Ledger) : (s.modLedger f).drift = s.drift := rfl
@[simp] theorem modLedger_hk (f : Ledger → Ledger) : (s.modLedger f).hk = s.hk := rfl
@[simp] theorem modLedger_thm (f : Ledger → Ledger) : (s.modLedger f).thm = s.thm := rfl
@[simp] theorem modLedger_bundle (f : Ledger → Ledger) : (s.modLedger f).bundle = s.bundle := rfl
@[simp] theorem modLedger_session (f : Ledger → Ledger) : (s.modLedger f).session = s.session := rfl
@[simp] theorem modLedger_act (f : Ledger → Ledger) : (s.modLedger f).act = s.act := rfl
@[simp] theorem modLedger_held (f : Ledger → Ledger) : (s.modLedger f).held = s.held := rfl
@[simp] theorem modLedger_history (f : Ledger → Ledger) : (s.modLedger f).history = s.history := rfl
@[simp] theorem modLedger_ctxs (f : Ledger → Ledger) : (s.modLedger f).ctxs = s.ctxs := rfl
@[simp] theorem modLedger_gens (f : Ledger → Ledger) : (s.modLedger f).gens = s.gens := rfl
@[simp] theorem modLedger_fetches (f : Ledger → Ledger) : (s.modLedger f).fetches = s.fetches := rfl
@[simp] theorem modLedger_nv (f : Ledger → Ledger) : (s.modLedger f).nv = s.nv := rfl
@[simp] theorem modLedger_ledger (f : Ledger → Ledger) : (s.modLedger f).ledger = f s.ledger := rfl
@[simp] theorem modLedger_sec (f : Ledger → Ledger) : (s.modLedger f).sec = s.sec := rfl
@[simp] theorem modLedger_links (f : Ledger → Ledger) : (s.modLedger f).links = s.links := rfl
@[simp] theorem modLedger_pair (f : Ledger → Ledger) : (s.modLedger f).pair = s.pair := rfl
@[simp] theorem modLedger_perf (f : Ledger → Ledger) : (s.modLedger f).perf = s.perf := rfl
@[simp] theorem modLedger_dbg (f : Ledger → Ledger) : (s.modLedger f).dbg = s.dbg := rfl
@[simp] theorem modLedger_aux (f : Ledger → Ledger) : (s.modLedger f).aux = s.aux := rfl
@[simp] theorem modLedger_pegs (f : Ledger → Ledger) : (s.modLedger f).pegs = s.pegs := rfl
@[simp] theorem modLedger_pins (f : Ledger → Ledger) : (s.modLedger f).pins = s.pins := rfl
@[simp] theorem modLedger_outs (f : Ledger → Ledger) : (s.modLedger f).outs = s.outs := rfl
@[simp] theorem modLedger_mem (f : Ledger → Ledger) : (s.modLedger f).mem = s.mem := rfl
@[simp] theorem modLedger_out (f : Ledger → Ledger) : (s.modLedger f).out = s.out := rfl
@[simp] theorem modLedger_wstatus (f : Ledger → Ledger) : (s.modLedger f).wstatus = s.wstatus := rfl
@[simp] theorem modLedger_free (f : Ledger → Ledger) : (s.modLedger f).free = s.free := rfl

@[simp] theorem modSec_pending (f : Sec → Sec) : (s.modSec f).pending = s.pending := rfl
@[simp] theorem modSec_time (f : Sec → Sec) : (s.modSec f).time = s.time := rfl
@[simp] theorem modSec_boot (f : Sec → Sec) : (s.modSec f).boot = s.boot := rfl
@[simp] theorem modSec_clk (f : Sec → Sec) : (s.modSec f).clk = s.clk := rfl
@[simp] theorem modSec_regs (f : Sec → Sec) : (s.modSec f).regs = s.regs := rfl
@[simp] theorem modSec_tick (f : Sec → Sec) : (s.modSec f).tick = s.tick := rfl
@[simp] theorem modSec_seq (f : Sec → Sec) : (s.modSec f).seq = s.seq := rfl
@[simp] theorem modSec_scene (f : Sec → Sec) : (s.modSec f).scene = s.scene := rfl
@[simp] theorem modSec_frames (f : Sec → Sec) : (s.modSec f).frames = s.frames := rfl
@[simp] theorem modSec_tiles (f : Sec → Sec) : (s.modSec f).tiles = s.tiles := rfl
@[simp] theorem modSec_drift (f : Sec → Sec) : (s.modSec f).drift = s.drift := rfl
@[simp] theorem modSec_hk (f : Sec → Sec) : (s.modSec f).hk = s.hk := rfl
@[simp] theorem modSec_thm (f : Sec → Sec) : (s.modSec f).thm = s.thm := rfl
@[simp] theorem modSec_bundle (f : Sec → Sec) : (s.modSec f).bundle = s.bundle := rfl
@[simp] theorem modSec_session (f : Sec → Sec) : (s.modSec f).session = s.session := rfl
@[simp] theorem modSec_act (f : Sec → Sec) : (s.modSec f).act = s.act := rfl
@[simp] theorem modSec_held (f : Sec → Sec) : (s.modSec f).held = s.held := rfl
@[simp] theorem modSec_history (f : Sec → Sec) : (s.modSec f).history = s.history := rfl
@[simp] theorem modSec_ctxs (f : Sec → Sec) : (s.modSec f).ctxs = s.ctxs := rfl
@[simp] theorem modSec_gens (f : Sec → Sec) : (s.modSec f).gens = s.gens := rfl
@[simp] theorem modSec_fetches (f : Sec → Sec) : (s.modSec f).fetches = s.fetches := rfl
@[simp] theorem modSec_nv (f : Sec → Sec) : (s.modSec f).nv = s.nv := rfl
@[simp] theorem modSec_ledger (f : Sec → Sec) : (s.modSec f).ledger = s.ledger := rfl
@[simp] theorem modSec_sec (f : Sec → Sec) : (s.modSec f).sec = f s.sec := rfl
@[simp] theorem modSec_links (f : Sec → Sec) : (s.modSec f).links = s.links := rfl
@[simp] theorem modSec_pair (f : Sec → Sec) : (s.modSec f).pair = s.pair := rfl
@[simp] theorem modSec_perf (f : Sec → Sec) : (s.modSec f).perf = s.perf := rfl
@[simp] theorem modSec_dbg (f : Sec → Sec) : (s.modSec f).dbg = s.dbg := rfl
@[simp] theorem modSec_aux (f : Sec → Sec) : (s.modSec f).aux = s.aux := rfl
@[simp] theorem modSec_pegs (f : Sec → Sec) : (s.modSec f).pegs = s.pegs := rfl
@[simp] theorem modSec_pins (f : Sec → Sec) : (s.modSec f).pins = s.pins := rfl
@[simp] theorem modSec_outs (f : Sec → Sec) : (s.modSec f).outs = s.outs := rfl
@[simp] theorem modSec_mem (f : Sec → Sec) : (s.modSec f).mem = s.mem := rfl
@[simp] theorem modSec_out (f : Sec → Sec) : (s.modSec f).out = s.out := rfl
@[simp] theorem modSec_wstatus (f : Sec → Sec) : (s.modSec f).wstatus = s.wstatus := rfl
@[simp] theorem modSec_free (f : Sec → Sec) : (s.modSec f).free = s.free := rfl

@[simp] theorem modPair_pending (f : Pair → Pair) : (s.modPair f).pending = s.pending := rfl
@[simp] theorem modPair_time (f : Pair → Pair) : (s.modPair f).time = s.time := rfl
@[simp] theorem modPair_boot (f : Pair → Pair) : (s.modPair f).boot = s.boot := rfl
@[simp] theorem modPair_clk (f : Pair → Pair) : (s.modPair f).clk = s.clk := rfl
@[simp] theorem modPair_regs (f : Pair → Pair) : (s.modPair f).regs = s.regs := rfl
@[simp] theorem modPair_tick (f : Pair → Pair) : (s.modPair f).tick = s.tick := rfl
@[simp] theorem modPair_seq (f : Pair → Pair) : (s.modPair f).seq = s.seq := rfl
@[simp] theorem modPair_scene (f : Pair → Pair) : (s.modPair f).scene = s.scene := rfl
@[simp] theorem modPair_frames (f : Pair → Pair) : (s.modPair f).frames = s.frames := rfl
@[simp] theorem modPair_tiles (f : Pair → Pair) : (s.modPair f).tiles = s.tiles := rfl
@[simp] theorem modPair_drift (f : Pair → Pair) : (s.modPair f).drift = s.drift := rfl
@[simp] theorem modPair_hk (f : Pair → Pair) : (s.modPair f).hk = s.hk := rfl
@[simp] theorem modPair_thm (f : Pair → Pair) : (s.modPair f).thm = s.thm := rfl
@[simp] theorem modPair_bundle (f : Pair → Pair) : (s.modPair f).bundle = s.bundle := rfl
@[simp] theorem modPair_session (f : Pair → Pair) : (s.modPair f).session = s.session := rfl
@[simp] theorem modPair_act (f : Pair → Pair) : (s.modPair f).act = s.act := rfl
@[simp] theorem modPair_held (f : Pair → Pair) : (s.modPair f).held = s.held := rfl
@[simp] theorem modPair_history (f : Pair → Pair) : (s.modPair f).history = s.history := rfl
@[simp] theorem modPair_ctxs (f : Pair → Pair) : (s.modPair f).ctxs = s.ctxs := rfl
@[simp] theorem modPair_gens (f : Pair → Pair) : (s.modPair f).gens = s.gens := rfl
@[simp] theorem modPair_fetches (f : Pair → Pair) : (s.modPair f).fetches = s.fetches := rfl
@[simp] theorem modPair_nv (f : Pair → Pair) : (s.modPair f).nv = s.nv := rfl
@[simp] theorem modPair_ledger (f : Pair → Pair) : (s.modPair f).ledger = s.ledger := rfl
@[simp] theorem modPair_sec (f : Pair → Pair) : (s.modPair f).sec = s.sec := rfl
@[simp] theorem modPair_links (f : Pair → Pair) : (s.modPair f).links = s.links := rfl
@[simp] theorem modPair_pair (f : Pair → Pair) : (s.modPair f).pair = f s.pair := rfl
@[simp] theorem modPair_perf (f : Pair → Pair) : (s.modPair f).perf = s.perf := rfl
@[simp] theorem modPair_dbg (f : Pair → Pair) : (s.modPair f).dbg = s.dbg := rfl
@[simp] theorem modPair_aux (f : Pair → Pair) : (s.modPair f).aux = s.aux := rfl
@[simp] theorem modPair_pegs (f : Pair → Pair) : (s.modPair f).pegs = s.pegs := rfl
@[simp] theorem modPair_pins (f : Pair → Pair) : (s.modPair f).pins = s.pins := rfl
@[simp] theorem modPair_outs (f : Pair → Pair) : (s.modPair f).outs = s.outs := rfl
@[simp] theorem modPair_mem (f : Pair → Pair) : (s.modPair f).mem = s.mem := rfl
@[simp] theorem modPair_out (f : Pair → Pair) : (s.modPair f).out = s.out := rfl
@[simp] theorem modPair_wstatus (f : Pair → Pair) : (s.modPair f).wstatus = s.wstatus := rfl
@[simp] theorem modPair_free (f : Pair → Pair) : (s.modPair f).free = s.free := rfl

@[simp] theorem modDbg_pending (f : Debug → Debug) : (s.modDbg f).pending = s.pending := rfl
@[simp] theorem modDbg_time (f : Debug → Debug) : (s.modDbg f).time = s.time := rfl
@[simp] theorem modDbg_boot (f : Debug → Debug) : (s.modDbg f).boot = s.boot := rfl
@[simp] theorem modDbg_clk (f : Debug → Debug) : (s.modDbg f).clk = s.clk := rfl
@[simp] theorem modDbg_regs (f : Debug → Debug) : (s.modDbg f).regs = s.regs := rfl
@[simp] theorem modDbg_tick (f : Debug → Debug) : (s.modDbg f).tick = s.tick := rfl
@[simp] theorem modDbg_seq (f : Debug → Debug) : (s.modDbg f).seq = s.seq := rfl
@[simp] theorem modDbg_scene (f : Debug → Debug) : (s.modDbg f).scene = s.scene := rfl
@[simp] theorem modDbg_frames (f : Debug → Debug) : (s.modDbg f).frames = s.frames := rfl
@[simp] theorem modDbg_tiles (f : Debug → Debug) : (s.modDbg f).tiles = s.tiles := rfl
@[simp] theorem modDbg_drift (f : Debug → Debug) : (s.modDbg f).drift = s.drift := rfl
@[simp] theorem modDbg_hk (f : Debug → Debug) : (s.modDbg f).hk = s.hk := rfl
@[simp] theorem modDbg_thm (f : Debug → Debug) : (s.modDbg f).thm = s.thm := rfl
@[simp] theorem modDbg_bundle (f : Debug → Debug) : (s.modDbg f).bundle = s.bundle := rfl
@[simp] theorem modDbg_session (f : Debug → Debug) : (s.modDbg f).session = s.session := rfl
@[simp] theorem modDbg_act (f : Debug → Debug) : (s.modDbg f).act = s.act := rfl
@[simp] theorem modDbg_held (f : Debug → Debug) : (s.modDbg f).held = s.held := rfl
@[simp] theorem modDbg_history (f : Debug → Debug) : (s.modDbg f).history = s.history := rfl
@[simp] theorem modDbg_ctxs (f : Debug → Debug) : (s.modDbg f).ctxs = s.ctxs := rfl
@[simp] theorem modDbg_gens (f : Debug → Debug) : (s.modDbg f).gens = s.gens := rfl
@[simp] theorem modDbg_fetches (f : Debug → Debug) : (s.modDbg f).fetches = s.fetches := rfl
@[simp] theorem modDbg_nv (f : Debug → Debug) : (s.modDbg f).nv = s.nv := rfl
@[simp] theorem modDbg_ledger (f : Debug → Debug) : (s.modDbg f).ledger = s.ledger := rfl
@[simp] theorem modDbg_sec (f : Debug → Debug) : (s.modDbg f).sec = s.sec := rfl
@[simp] theorem modDbg_links (f : Debug → Debug) : (s.modDbg f).links = s.links := rfl
@[simp] theorem modDbg_pair (f : Debug → Debug) : (s.modDbg f).pair = s.pair := rfl
@[simp] theorem modDbg_perf (f : Debug → Debug) : (s.modDbg f).perf = s.perf := rfl
@[simp] theorem modDbg_dbg (f : Debug → Debug) : (s.modDbg f).dbg = f s.dbg := rfl
@[simp] theorem modDbg_aux (f : Debug → Debug) : (s.modDbg f).aux = s.aux := rfl
@[simp] theorem modDbg_pegs (f : Debug → Debug) : (s.modDbg f).pegs = s.pegs := rfl
@[simp] theorem modDbg_pins (f : Debug → Debug) : (s.modDbg f).pins = s.pins := rfl
@[simp] theorem modDbg_outs (f : Debug → Debug) : (s.modDbg f).outs = s.outs := rfl
@[simp] theorem modDbg_mem (f : Debug → Debug) : (s.modDbg f).mem = s.mem := rfl
@[simp] theorem modDbg_out (f : Debug → Debug) : (s.modDbg f).out = s.out := rfl
@[simp] theorem modDbg_wstatus (f : Debug → Debug) : (s.modDbg f).wstatus = s.wstatus := rfl
@[simp] theorem modDbg_free (f : Debug → Debug) : (s.modDbg f).free = s.free := rfl

@[simp] theorem modSide_pending (d : LinkDir) (f : LinkSide → LinkSide) : (s.modSide d f).pending = s.pending := by cases d <;> rfl
@[simp] theorem modSide_time (d : LinkDir) (f : LinkSide → LinkSide) : (s.modSide d f).time = s.time := by cases d <;> rfl
@[simp] theorem modSide_boot (d : LinkDir) (f : LinkSide → LinkSide) : (s.modSide d f).boot = s.boot := by cases d <;> rfl
@[simp] theorem modSide_clk (d : LinkDir) (f : LinkSide → LinkSide) : (s.modSide d f).clk = s.clk := by cases d <;> rfl
@[simp] theorem modSide_regs (d : LinkDir) (f : LinkSide → LinkSide) : (s.modSide d f).regs = s.regs := by cases d <;> rfl
@[simp] theorem modSide_tick (d : LinkDir) (f : LinkSide → LinkSide) : (s.modSide d f).tick = s.tick := by cases d <;> rfl
@[simp] theorem modSide_seq (d : LinkDir) (f : LinkSide → LinkSide) : (s.modSide d f).seq = s.seq := by cases d <;> rfl
@[simp] theorem modSide_scene (d : LinkDir) (f : LinkSide → LinkSide) : (s.modSide d f).scene = s.scene := by cases d <;> rfl
@[simp] theorem modSide_frames (d : LinkDir) (f : LinkSide → LinkSide) : (s.modSide d f).frames = s.frames := by cases d <;> rfl
@[simp] theorem modSide_tiles (d : LinkDir) (f : LinkSide → LinkSide) : (s.modSide d f).tiles = s.tiles := by cases d <;> rfl
@[simp] theorem modSide_drift (d : LinkDir) (f : LinkSide → LinkSide) : (s.modSide d f).drift = s.drift := by cases d <;> rfl
@[simp] theorem modSide_hk (d : LinkDir) (f : LinkSide → LinkSide) : (s.modSide d f).hk = s.hk := by cases d <;> rfl
@[simp] theorem modSide_thm (d : LinkDir) (f : LinkSide → LinkSide) : (s.modSide d f).thm = s.thm := by cases d <;> rfl
@[simp] theorem modSide_bundle (d : LinkDir) (f : LinkSide → LinkSide) : (s.modSide d f).bundle = s.bundle := by cases d <;> rfl
@[simp] theorem modSide_session (d : LinkDir) (f : LinkSide → LinkSide) : (s.modSide d f).session = s.session := by cases d <;> rfl
@[simp] theorem modSide_act (d : LinkDir) (f : LinkSide → LinkSide) : (s.modSide d f).act = s.act := by cases d <;> rfl
@[simp] theorem modSide_held (d : LinkDir) (f : LinkSide → LinkSide) : (s.modSide d f).held = s.held := by cases d <;> rfl
@[simp] theorem modSide_history (d : LinkDir) (f : LinkSide → LinkSide) : (s.modSide d f).history = s.history := by cases d <;> rfl
@[simp] theorem modSide_ctxs (d : LinkDir) (f : LinkSide → LinkSide) : (s.modSide d f).ctxs = s.ctxs := by cases d <;> rfl
@[simp] theorem modSide_gens (d : LinkDir) (f : LinkSide → LinkSide) : (s.modSide d f).gens = s.gens := by cases d <;> rfl
@[simp] theorem modSide_fetches (d : LinkDir) (f : LinkSide → LinkSide) : (s.modSide d f).fetches = s.fetches := by cases d <;> rfl
@[simp] theorem modSide_nv (d : LinkDir) (f : LinkSide → LinkSide) : (s.modSide d f).nv = s.nv := by cases d <;> rfl
@[simp] theorem modSide_ledger (d : LinkDir) (f : LinkSide → LinkSide) : (s.modSide d f).ledger = s.ledger := by cases d <;> rfl
@[simp] theorem modSide_sec (d : LinkDir) (f : LinkSide → LinkSide) : (s.modSide d f).sec = s.sec := by cases d <;> rfl
@[simp] theorem modSide_pair (d : LinkDir) (f : LinkSide → LinkSide) : (s.modSide d f).pair = s.pair := by cases d <;> rfl
@[simp] theorem modSide_perf (d : LinkDir) (f : LinkSide → LinkSide) : (s.modSide d f).perf = s.perf := by cases d <;> rfl
@[simp] theorem modSide_dbg (d : LinkDir) (f : LinkSide → LinkSide) : (s.modSide d f).dbg = s.dbg := by cases d <;> rfl
@[simp] theorem modSide_aux (d : LinkDir) (f : LinkSide → LinkSide) : (s.modSide d f).aux = s.aux := by cases d <;> rfl
@[simp] theorem modSide_pegs (d : LinkDir) (f : LinkSide → LinkSide) : (s.modSide d f).pegs = s.pegs := by cases d <;> rfl
@[simp] theorem modSide_pins (d : LinkDir) (f : LinkSide → LinkSide) : (s.modSide d f).pins = s.pins := by cases d <;> rfl
@[simp] theorem modSide_outs (d : LinkDir) (f : LinkSide → LinkSide) : (s.modSide d f).outs = s.outs := by cases d <;> rfl
@[simp] theorem modSide_mem (d : LinkDir) (f : LinkSide → LinkSide) : (s.modSide d f).mem = s.mem := by cases d <;> rfl
@[simp] theorem modSide_out (d : LinkDir) (f : LinkSide → LinkSide) : (s.modSide d f).out = s.out := by cases d <;> rfl
@[simp] theorem modSide_wstatus (d : LinkDir) (f : LinkSide → LinkSide) : (s.modSide d f).wstatus = s.wstatus := by cases d <;> rfl
@[simp] theorem modSide_free (d : LinkDir) (f : LinkSide → LinkSide) : (s.modSide d f).free = s.free := by cases d <;> rfl
@[simp] theorem modSide_side (d : LinkDir) (f : LinkSide → LinkSide) : (s.modSide d f).side d = f (s.side d) := by cases d <;> rfl

@[simp] theorem takeFree_pending (w : Nat) : (s.takeFree w).2.pending = s.pending := rfl
@[simp] theorem takeFree_time (w : Nat) : (s.takeFree w).2.time = s.time := rfl
@[simp] theorem takeFree_boot (w : Nat) : (s.takeFree w).2.boot = s.boot := rfl
@[simp] theorem takeFree_clk (w : Nat) : (s.takeFree w).2.clk = s.clk := rfl
@[simp] theorem takeFree_regs (w : Nat) : (s.takeFree w).2.regs = s.regs := rfl
@[simp] theorem takeFree_tick (w : Nat) : (s.takeFree w).2.tick = s.tick := rfl
@[simp] theorem takeFree_seq (w : Nat) : (s.takeFree w).2.seq = s.seq := rfl
@[simp] theorem takeFree_scene (w : Nat) : (s.takeFree w).2.scene = s.scene := rfl
@[simp] theorem takeFree_frames (w : Nat) : (s.takeFree w).2.frames = s.frames := rfl
@[simp] theorem takeFree_tiles (w : Nat) : (s.takeFree w).2.tiles = s.tiles := rfl
@[simp] theorem takeFree_drift (w : Nat) : (s.takeFree w).2.drift = s.drift := rfl
@[simp] theorem takeFree_hk (w : Nat) : (s.takeFree w).2.hk = s.hk := rfl
@[simp] theorem takeFree_thm (w : Nat) : (s.takeFree w).2.thm = s.thm := rfl
@[simp] theorem takeFree_bundle (w : Nat) : (s.takeFree w).2.bundle = s.bundle := rfl
@[simp] theorem takeFree_session (w : Nat) : (s.takeFree w).2.session = s.session := rfl
@[simp] theorem takeFree_act (w : Nat) : (s.takeFree w).2.act = s.act := rfl
@[simp] theorem takeFree_held (w : Nat) : (s.takeFree w).2.held = s.held := rfl
@[simp] theorem takeFree_history (w : Nat) : (s.takeFree w).2.history = s.history := rfl
@[simp] theorem takeFree_ctxs (w : Nat) : (s.takeFree w).2.ctxs = s.ctxs := rfl
@[simp] theorem takeFree_gens (w : Nat) : (s.takeFree w).2.gens = s.gens := rfl
@[simp] theorem takeFree_fetches (w : Nat) : (s.takeFree w).2.fetches = s.fetches := rfl
@[simp] theorem takeFree_nv (w : Nat) : (s.takeFree w).2.nv = s.nv := rfl
@[simp] theorem takeFree_ledger (w : Nat) : (s.takeFree w).2.ledger = s.ledger := rfl
@[simp] theorem takeFree_sec (w : Nat) : (s.takeFree w).2.sec = s.sec := rfl
@[simp] theorem takeFree_links (w : Nat) : (s.takeFree w).2.links = s.links := rfl
@[simp] theorem takeFree_pair (w : Nat) : (s.takeFree w).2.pair = s.pair := rfl
@[simp] theorem takeFree_perf (w : Nat) : (s.takeFree w).2.perf = s.perf := rfl
@[simp] theorem takeFree_dbg (w : Nat) : (s.takeFree w).2.dbg = s.dbg := rfl
@[simp] theorem takeFree_aux (w : Nat) : (s.takeFree w).2.aux = s.aux := rfl
@[simp] theorem takeFree_pegs (w : Nat) : (s.takeFree w).2.pegs = s.pegs := rfl
@[simp] theorem takeFree_pins (w : Nat) : (s.takeFree w).2.pins = s.pins := rfl
@[simp] theorem takeFree_outs (w : Nat) : (s.takeFree w).2.outs = s.outs := rfl
@[simp] theorem takeFree_mem (w : Nat) : (s.takeFree w).2.mem = s.mem := rfl
@[simp] theorem takeFree_out (w : Nat) : (s.takeFree w).2.out = s.out := rfl
@[simp] theorem takeFree_wstatus (w : Nat) : (s.takeFree w).2.wstatus = s.wstatus := rfl
@[simp] theorem takeFree_free (w : Nat) : (s.takeFree w).2.free = s.free + 1 := rfl

@[simp] theorem modFrame_pending (n : Nat) (f : Frame → Frame) : (s.modFrame n f).pending = s.pending := rfl
@[simp] theorem modFrame_time (n : Nat) (f : Frame → Frame) : (s.modFrame n f).time = s.time := rfl
@[simp] theorem modFrame_boot (n : Nat) (f : Frame → Frame) : (s.modFrame n f).boot = s.boot := rfl
@[simp] theorem modFrame_clk (n : Nat) (f : Frame → Frame) : (s.modFrame n f).clk = s.clk := rfl
@[simp] theorem modFrame_regs (n : Nat) (f : Frame → Frame) : (s.modFrame n f).regs = s.regs := rfl
@[simp] theorem modFrame_tick (n : Nat) (f : Frame → Frame) : (s.modFrame n f).tick = s.tick := rfl
@[simp] theorem modFrame_scene (n : Nat) (f : Frame → Frame) : (s.modFrame n f).scene = s.scene := rfl
@[simp] theorem modFrame_seq (n : Nat) (f : Frame → Frame) : (s.modFrame n f).seq = s.seq := rfl
@[simp] theorem modFrame_tiles (n : Nat) (f : Frame → Frame) : (s.modFrame n f).tiles = s.tiles := rfl
@[simp] theorem modFrame_drift (n : Nat) (f : Frame → Frame) : (s.modFrame n f).drift = s.drift := rfl
@[simp] theorem modFrame_hk (n : Nat) (f : Frame → Frame) : (s.modFrame n f).hk = s.hk := rfl
@[simp] theorem modFrame_thm (n : Nat) (f : Frame → Frame) : (s.modFrame n f).thm = s.thm := rfl
@[simp] theorem modFrame_bundle (n : Nat) (f : Frame → Frame) : (s.modFrame n f).bundle = s.bundle := rfl
@[simp] theorem modFrame_session (n : Nat) (f : Frame → Frame) : (s.modFrame n f).session = s.session := rfl
@[simp] theorem modFrame_act (n : Nat) (f : Frame → Frame) : (s.modFrame n f).act = s.act := rfl
@[simp] theorem modFrame_held (n : Nat) (f : Frame → Frame) : (s.modFrame n f).held = s.held := rfl
@[simp] theorem modFrame_history (n : Nat) (f : Frame → Frame) : (s.modFrame n f).history = s.history := rfl
@[simp] theorem modFrame_ctxs (n : Nat) (f : Frame → Frame) : (s.modFrame n f).ctxs = s.ctxs := rfl
@[simp] theorem modFrame_gens (n : Nat) (f : Frame → Frame) : (s.modFrame n f).gens = s.gens := rfl
@[simp] theorem modFrame_fetches (n : Nat) (f : Frame → Frame) : (s.modFrame n f).fetches = s.fetches := rfl
@[simp] theorem modFrame_nv (n : Nat) (f : Frame → Frame) : (s.modFrame n f).nv = s.nv := rfl
@[simp] theorem modFrame_ledger (n : Nat) (f : Frame → Frame) : (s.modFrame n f).ledger = s.ledger := rfl
@[simp] theorem modFrame_sec (n : Nat) (f : Frame → Frame) : (s.modFrame n f).sec = s.sec := rfl
@[simp] theorem modFrame_links (n : Nat) (f : Frame → Frame) : (s.modFrame n f).links = s.links := rfl
@[simp] theorem modFrame_pair (n : Nat) (f : Frame → Frame) : (s.modFrame n f).pair = s.pair := rfl
@[simp] theorem modFrame_perf (n : Nat) (f : Frame → Frame) : (s.modFrame n f).perf = s.perf := rfl
@[simp] theorem modFrame_dbg (n : Nat) (f : Frame → Frame) : (s.modFrame n f).dbg = s.dbg := rfl
@[simp] theorem modFrame_aux (n : Nat) (f : Frame → Frame) : (s.modFrame n f).aux = s.aux := rfl
@[simp] theorem modFrame_pegs (n : Nat) (f : Frame → Frame) : (s.modFrame n f).pegs = s.pegs := rfl
@[simp] theorem modFrame_pins (n : Nat) (f : Frame → Frame) : (s.modFrame n f).pins = s.pins := rfl
@[simp] theorem modFrame_outs (n : Nat) (f : Frame → Frame) : (s.modFrame n f).outs = s.outs := rfl
@[simp] theorem modFrame_mem (n : Nat) (f : Frame → Frame) : (s.modFrame n f).mem = s.mem := rfl
@[simp] theorem modFrame_out (n : Nat) (f : Frame → Frame) : (s.modFrame n f).out = s.out := rfl
@[simp] theorem modFrame_wstatus (n : Nat) (f : Frame → Frame) : (s.modFrame n f).wstatus = s.wstatus := rfl
@[simp] theorem modFrame_free (n : Nat) (f : Frame → Frame) : (s.modFrame n f).free = s.free := rfl

@[simp] theorem modLane_pending (n : Nat) (f : Lane → Lane) : (s.modLane n f).pending = s.pending := rfl
@[simp] theorem modLane_time (n : Nat) (f : Lane → Lane) : (s.modLane n f).time = s.time := rfl
@[simp] theorem modLane_boot (n : Nat) (f : Lane → Lane) : (s.modLane n f).boot = s.boot := rfl
@[simp] theorem modLane_clk (n : Nat) (f : Lane → Lane) : (s.modLane n f).clk = s.clk := rfl
@[simp] theorem modLane_regs (n : Nat) (f : Lane → Lane) : (s.modLane n f).regs = s.regs := rfl
@[simp] theorem modLane_tick (n : Nat) (f : Lane → Lane) : (s.modLane n f).tick = s.tick := rfl
@[simp] theorem modLane_scene (n : Nat) (f : Lane → Lane) : (s.modLane n f).scene = s.scene := rfl
@[simp] theorem modLane_seq (n : Nat) (f : Lane → Lane) : (s.modLane n f).seq = s.seq := rfl
@[simp] theorem modLane_frames (n : Nat) (f : Lane → Lane) : (s.modLane n f).frames = s.frames := rfl
@[simp] theorem modLane_tiles (n : Nat) (f : Lane → Lane) : (s.modLane n f).tiles = s.tiles := rfl
@[simp] theorem modLane_drift (n : Nat) (f : Lane → Lane) : (s.modLane n f).drift = s.drift := rfl
@[simp] theorem modLane_hk (n : Nat) (f : Lane → Lane) : (s.modLane n f).hk = s.hk := rfl
@[simp] theorem modLane_thm (n : Nat) (f : Lane → Lane) : (s.modLane n f).thm = s.thm := rfl
@[simp] theorem modLane_bundle (n : Nat) (f : Lane → Lane) : (s.modLane n f).bundle = s.bundle := rfl
@[simp] theorem modLane_session (n : Nat) (f : Lane → Lane) : (s.modLane n f).session = s.session := rfl
@[simp] theorem modLane_act (n : Nat) (f : Lane → Lane) : (s.modLane n f).act = s.act := rfl
@[simp] theorem modLane_held (n : Nat) (f : Lane → Lane) : (s.modLane n f).held = s.held := rfl
@[simp] theorem modLane_history (n : Nat) (f : Lane → Lane) : (s.modLane n f).history = s.history := rfl
@[simp] theorem modLane_ctxs (n : Nat) (f : Lane → Lane) : (s.modLane n f).ctxs = s.ctxs := rfl
@[simp] theorem modLane_gens (n : Nat) (f : Lane → Lane) : (s.modLane n f).gens = s.gens := rfl
@[simp] theorem modLane_fetches (n : Nat) (f : Lane → Lane) : (s.modLane n f).fetches = s.fetches := rfl
@[simp] theorem modLane_nv (n : Nat) (f : Lane → Lane) : (s.modLane n f).nv = s.nv := rfl
@[simp] theorem modLane_ledger (n : Nat) (f : Lane → Lane) : (s.modLane n f).ledger = s.ledger := rfl
@[simp] theorem modLane_sec (n : Nat) (f : Lane → Lane) : (s.modLane n f).sec = s.sec := rfl
@[simp] theorem modLane_links (n : Nat) (f : Lane → Lane) : (s.modLane n f).links = s.links := rfl
@[simp] theorem modLane_pair (n : Nat) (f : Lane → Lane) : (s.modLane n f).pair = s.pair := rfl
@[simp] theorem modLane_dbg (n : Nat) (f : Lane → Lane) : (s.modLane n f).dbg = s.dbg := rfl
@[simp] theorem modLane_aux (n : Nat) (f : Lane → Lane) : (s.modLane n f).aux = s.aux := rfl
@[simp] theorem modLane_pegs (n : Nat) (f : Lane → Lane) : (s.modLane n f).pegs = s.pegs := rfl
@[simp] theorem modLane_pins (n : Nat) (f : Lane → Lane) : (s.modLane n f).pins = s.pins := rfl
@[simp] theorem modLane_outs (n : Nat) (f : Lane → Lane) : (s.modLane n f).outs = s.outs := rfl
@[simp] theorem modLane_mem (n : Nat) (f : Lane → Lane) : (s.modLane n f).mem = s.mem := rfl
@[simp] theorem modLane_out (n : Nat) (f : Lane → Lane) : (s.modLane n f).out = s.out := rfl
@[simp] theorem modLane_wstatus (n : Nat) (f : Lane → Lane) : (s.modLane n f).wstatus = s.wstatus := rfl
@[simp] theorem modLane_free (n : Nat) (f : Lane → Lane) : (s.modLane n f).free = s.free := rfl

@[simp] theorem writeMem_cells (a : Nat) (b : Bytes) : (s.writeMem a b).mem.cells = putCells s.mem.cells a b := rfl

end Sys2Proof.Laws
end

