-- ==== Sys2Proof/WellFormed.lean ====
section
/-!
DEFINITION. When a command or event of the table is well formed: every operand lies within the width that the spec gives its
field. The time operand is a value of the 64-bit time base (R352).
-/
namespace Sys2Proof

/-- A debug request names an address or a parameter ID within its width (R286, R297). -/
def DbgReq.wf : DbgReq → Bool
  | .counter _ _ => true
  | .mem a => decide (a < 2 ^ 34)
  | .param id => decide (id < 2 ^ 16)
  | .coreReg _ r => decide (r < 2 ^ 16)
  | .halt _ => true
  | .step _ => true
  | .resume _ => true
  | .breakpoint _ a => decide (a < 2 ^ 32)

/-- A reply is 16 bytes, an event 64, a command a header of 32 with at most 4,096 inline bytes (Table 9.9, Table 9.10, R260). -/
def FwdMsg.wf : FwdMsg → Bool
  | .reply bytes => bytes.length == 16
  | .event bytes => bytes.length == 64
  | .command header payload => header.length == 32 && decide (payload.length ≤ 4096)
  | .reset => true

/-- Parameter IDs of 16 bits, a mask of 32 conditions (R289), generations of 11-bit tags (R269), and an inhibit request within its
operand widths (R161). -/
def syncWf : SyncMsg → Bool
  | .values entries => entries.all (fun e => decide (e.1 < 2 ^ 16))
  | .commit _ entries => entries.all (fun e => decide (e.1 < 2 ^ 16))
  | .verdict _ mask => decide (mask < 2 ^ 32)
  | .decide _ _ _ => true
  | .gens tags => tags.all (fun e => decide (e.1 < 2 ^ 11 && e.2 < 2 ^ 5))
  | .cycle _ _ _ | .uncycle _ => true
  | .inhibit _ delay len => decide (delay < 2 ^ 16 && len < 2 ^ 16)

/-- A bundle header of 512 bytes, chunks of at most 1 MiB, and a status byte (R187, R189). -/
def BundleMsg.wf : BundleMsg → Bool
  | .header b => b.length == 512
  | .data b => decide (b.length ≤ 1048576)
  | .finish => true
  | .result status => decide (status < 256)
  | .activate => true

/-- Operands within their widths: training and lanes (R42, R49, R296, R353), ticks (R19, R29), rows and lines (R21, R76, R83),
housekeeping (R103, R104), rings and data port (Tables 9.5 and 9.21), peg frames (Table 9.4), NV (R382), links (R47, R50), the pair
(Tables 11.6 to 11.9) and debug (R414). -/
def Instr.wf : Instr → Bool
  | .porstNAssert t _ => decide (t < 2 ^ 64)
  | .porstNRelease t _ _ _ => decide (t < 2 ^ 64)
  | .brownOut t _ _ => decide (t < 2 ^ 64)
  | .powerLoss t => decide (t < 2 ^ 64)
  | .oscSettleExpiry t => decide (t < 2 ^ 64)
  | .crystalCheckDone t kHz => decide (t < 2 ^ 64) && (kHz < 2 ^ 32)
  | .guylineTrainDone t lanesFC lanesCF => decide (t < 2 ^ 64) && (lanesFC ≤ 16 && lanesCF ≤ 4)
  | .memoryTrainDone t gib _ chans => decide (t < 2 ^ 64) && (gib ≤ 31 && chans.length == 8 && chans.all (fun c => decide (c.2 < 32)))
  | .bootImageStart t => decide (t < 2 ^ 64)
  | .pfwNAssert t _ => decide (t < 2 ^ 64)
  | .pfwNRelease t _ => decide (t < 2 ^ 64)
  | .functionLevelReset t _ => decide (t < 2 ^ 64)
  | .hotReset t => decide (t < 2 ^ 64)
  | .referenceLost t _ => decide (t < 2 ^ 64)
  | .referenceRestored t _ => decide (t < 2 ^ 64)
  | .clockSwitchDone t _ => decide (t < 2 ^ 64)
  | .rcTrimMeasurement t count => decide (t < 2 ^ 64) && (count < 2 ^ 32)
  | .internalTick t => decide (t < 2 ^ 64)
  | .fsyncEdge t samples => decide (t < 2 ^ 64) && (10 * samples.length ≤ t + 10)
  | .fsyncDeadlineMissed t => decide (t < 2 ^ 64)
  | .freeRunTick t => decide (t < 2 ^ 64)
  | .frameStartMessage t frame ts => decide (t < 2 ^ 64) && (frame < 2 ^ 48 && ts < 2 ^ 64)
  | .slotStart t taps => decide (t < 2 ^ 64) && (taps.length == 8)
  | .pointerReset t _ => decide (t < 2 ^ 64)
  | .leadSlotStart t => decide (t < 2 ^ 64)
  | .cutTime t => decide (t < 2 ^ 64)
  | .frameClose t => decide (t < 2 ^ 64)
  | .mosaicRowComplete t y => decide (t < 2 ^ 64) && (y < 2 ^ 14)
  | .deliveryDone t _ => decide (t < 2 ^ 64)
  | .portImageDone t _ => decide (t < 2 ^ 64)
  | .tileWakeExpiry t _ => decide (t < 2 ^ 64)
  | .biasDacUpdate t => decide (t < 2 ^ 64)
  | .biasSettleExpiry t _ _ => decide (t < 2 ^ 64)
  | .biasFault t _ _ => decide (t < 2 ^ 64)
  | .tileFault t _ => decide (t < 2 ^ 64)
  | .tenOffExpiry t _ => decide (t < 2 ^ 64)
  | .biasCodeWrite t _ _ _ => decide (t < 2 ^ 64)
  | .tpFvRise t _ clk10kHz => decide (t < 2 ^ 64) && (clk10kHz < 2 ^ 16)
  | .digitalLine t _ words => decide (t < 2 ^ 64) && (words.length ≤ 8192)
  | .tpFvFall t _ => decide (t < 2 ^ 64)
  | .tpClkStop t _ => decide (t < 2 ^ 64)
  | .adcRefenWrite t _ => decide (t < 2 ^ 64)
  | .refReadyExpiry t => decide (t < 2 ^ 64)
  | .hkRoundDue t => decide (t < 2 ^ 64)
  | .hkEntryDone t volts => decide (t < 2 ^ 64) && (volts.all (fun v => decide (v < 2 ^ 32)))
  | .hkInjFireWrite t _ => decide (t < 2 ^ 64)
  | .cDieSensorMeasure t vals => decide (t < 2 ^ 64) && (vals.length == 8 && vals.all (fun v => decide (v < 4096)))
  | .hkQueueRead t _ => decide (t < 2 ^ 64)
  | .hkQEnWrite t _ => decide (t < 2 ^ 64)
  | .throttleStage2Timer t => decide (t < 2 ^ 64)
  | .thmResumeWrite t _ _ => decide (t < 2 ^ 64)
  | .flyPulseEnd t _ => decide (t < 2 ^ 64)
  | .flyPosChange t _ _ ts => decide (t < 2 ^ 64) && (ts ≤ t)
  | .closeTimeout t _ => decide (t < 2 ^ 64)
  | .openTimeout t _ => decide (t < 2 ^ 64)
  | .flysheetComputeDone t _ => decide (t < 2 ^ 64)
  | .inhibitWindowOpen t _ => decide (t < 2 ^ 64)
  | .inhibitWindowEnd t _ => decide (t < 2 ^ 64)
  | .flyTmaxExpiry t _ => decide (t < 2 ^ 64)
  | .calImportTmoExpiry t => decide (t < 2 ^ 64)
  | .activationStart t => decide (t < 2 ^ 64)
  | .activationCopyDone t _ => decide (t < 2 ^ 64)
  | .activationHoldEnd t => decide (t < 2 ^ 64)
  | .memoryTagFail t addr _ => decide (t < 2 ^ 64) && (addr < 2 ^ 34 && addr % 512 == 0)
  | .sqTailDoorbell t _ tail slots => decide (t < 2 ^ 64) && (tail < 2 ^ 12 && slots.length % 32 == 0)
  | .cqHeadDoorbell t _ head => decide (t < 2 ^ 64) && (head < 2 ^ 12)
  | .eqHeadDoorbell t _ head => decide (t < 2 ^ 64) && (head < 2 ^ 10)
  | .ringEnable t _ => decide (t < 2 ^ 64)
  | .ringDisable t _ => decide (t < 2 ^ 64)
  | .barRegisterWrite t _ _ _ => decide (t < 2 ^ 64)
  | .irqHoldoffExpiry t _ _ => decide (t < 2 ^ 64)
  | .commandTimeout t _ _ => decide (t < 2 ^ 64)
  | .dpDataAccess t _ _ => decide (t < 2 ^ 64)
  | .dpBurstAccess t _ off _ => decide (t < 2 ^ 64) && (off < 4096)
  | .pegCommandFrame t _ frame => decide (t < 2 ^ 64) && (frame.length ≤ 8224)
  | .pegDataWriteFrame t _ addr data => decide (t < 2 ^ 64) && (addr < 2 ^ 40 && data.length < 2 ^ 16)
  | .pegDataReadFrame t _ addr count => decide (t < 2 ^ 64) && (addr < 2 ^ 40 && count < 2 ^ 16)
  | .nop t _ _ => decide (t < 2 ^ 64)
  | .getInfo t _ _ _ => decide (t < 2 ^ 64)
  | .getRecovery t _ _ _ => decide (t < 2 ^ 64)
  | .resetContext t _ _ => decide (t < 2 ^ 64)
  | .abort t _ _ => decide (t < 2 ^ 64)
  | .eventArm t _ _ => decide (t < 2 ^ 64)
  | .paramRead t _ _ _ => decide (t < 2 ^ 64)
  | .paramWrite t _ _ => decide (t < 2 ^ 64)
  | .paramCommit t _ _ => decide (t < 2 ^ 64)
  | .commitEvaluation t => decide (t < 2 ^ 64)
  | .commitNoTickTimeout t => decide (t < 2 ^ 64)
  | .streamStart t _ _ => decide (t < 2 ^ 64)
  | .streamStop t _ _ => decide (t < 2 ^ 64)
  | .streamStopComplete t _ _ => decide (t < 2 ^ 64)
  | .bufferBind t _ _ => decide (t < 2 ^ 64)
  | .bufferRelease t _ _ => decide (t < 2 ^ 64)
  | .calImportBegin t _ _ => decide (t < 2 ^ 64)
  | .calImportChunk t _ _ _ => decide (t < 2 ^ 64)
  | .calImportEnd t _ _ => decide (t < 2 ^ 64)
  | .calStatus t _ _ _ => decide (t < 2 ^ 64)
  | .flyCycle t _ _ => decide (t < 2 ^ 64)
  | .flyInhibit t _ _ => decide (t < 2 ^ 64)
  | .driftStatus t _ _ _ => decide (t < 2 ^ 64)
  | .dataRead t _ _ _ => decide (t < 2 ^ 64)
  | .dataWrite t _ _ _ => decide (t < 2 ^ 64)
  | .nvRead t _ _ _ => decide (t < 2 ^ 64)
  | .nvWrite t _ _ _ => decide (t < 2 ^ 64)
  | .nvCommit t _ _ => decide (t < 2 ^ 64)
  | .nvUnlock t _ _ => decide (t < 2 ^ 64)
  | .nvAutocommitExpiry t => decide (t < 2 ^ 64)
  | .nvCommitDone t retired recordFails => decide (t < 2 ^ 64) && (retired ≤ 5 && recordFails ≤ 2)
  | .ledgerRead t _ _ _ => decide (t < 2 ^ 64)
  | .ledgerClosePeriod t _ _ => decide (t < 2 ^ 64)
  | .ledgerHostTimeWrite t _ => decide (t < 2 ^ 64)
  | .operatingMinute t => decide (t < 2 ^ 64)
  | .ledgerSecond t => decide (t < 2 ^ 64)
  | .authChallenge t _ _ _ => decide (t < 2 ^ 64)
  | .authResponse t _ _ => decide (t < 2 ^ 64)
  | .authChallengeExpiry t _ => decide (t < 2 ^ 64)
  | .authLockoutEnd t _ => decide (t < 2 ^ 64)
  | .attest t _ _ _ => decide (t < 2 ^ 64)
  | .ownerProvision t _ _ => decide (t < 2 ^ 64)
  | .fwDownload t _ _ _ => decide (t < 2 ^ 64)
  | .fwVerify t _ _ => decide (t < 2 ^ 64)
  | .fwActivate t _ _ => decide (t < 2 ^ 64)
  | .fwRestartDelay t => decide (t < 2 ^ 64)
  | .fwConfirm t _ _ => decide (t < 2 ^ 64)
  | .fwConfirmTimeout t => decide (t < 2 ^ 64)
  | .pairJoin t _ _ peer => decide (t < 2 ^ 64) && (peer.devId.length == 16 && peer.peerId.length == 16 && peer.identity.length == 97
    && peer.ephemeral.length == 97 && peer.sig.length == 96 && peer.ownerHashes.all (fun h => h.length == 48))
  | .pairJoinTimeout t => decide (t < 2 ^ 64)
  | .pairStatus t _ _ _ => decide (t < 2 ^ 64)
  | .pairHandover t _ _ => decide (t < 2 ^ 64)
  | .perfSnapshot t _ _ _ => decide (t < 2 ^ 64)
  | .snapshotWritten t => decide (t < 2 ^ 64)
  | .sampleRead t _ _ _ => decide (t < 2 ^ 64)
  | .debugUnlock t _ _ _ => decide (t < 2 ^ 64)
  | .debugNonceExpiry t => decide (t < 2 ^ 64)
  | .debugTimeExpiry t => decide (t < 2 ^ 64)
  | .tapInstruction t _ => decide (t < 2 ^ 64)
  | .dbgAccess t r => decide (t < 2 ^ 64) && (r.wf)
  | .lockRevoked t _ _ => decide (t < 2 ^ 64)
  | .auxSubmitWrite t _ _ _ => decide (t < 2 ^ 64)
  | .auxProcessStart t => decide (t < 2 ^ 64)
  | .auxFrameDone t => decide (t < 2 ^ 64)
  | .replayStart t _ => decide (t < 2 ^ 64)
  | .captureStart t _ => decide (t < 2 ^ 64)
  | .replayStop t _ => decide (t < 2 ^ 64)
  | .replayFrameStart t => decide (t < 2 ^ 64)
  | .replayFrameDone t => decide (t < 2 ^ 64)
  | .pegXferWrite t _ _ => decide (t < 2 ^ 64)
  | .pegPrdyHigh t _ _ => decide (t < 2 ^ 64)
  | .pegPrdyTimeout t _ => decide (t < 2 ^ 64)
  | .pegTransferDone t _ => decide (t < 2 ^ 64)
  | .pegSlaveByte t _ _ => decide (t < 2 ^ 64)
  | .pegSsNRise t _ => decide (t < 2 ^ 64)
  | .perfEvselWrite t _ _ _ => decide (t < 2 ^ 64)
  | .perfCtlWrite t _ _ => decide (t < 2 ^ 64)
  | .perfClearWrite t _ => decide (t < 2 ^ 64)
  | .sampleCfgWrite t _ => decide (t < 2 ^ 64)
  | .linkFlitReceived t _ _ => decide (t < 2 ^ 64)
  | .linkAckTimer t _ => decide (t < 2 ^ 64)
  | .linkAckTimeout t _ => decide (t < 2 ^ 64)
  | .linkReplayWindow t _ => decide (t < 2 ^ 64)
  | .linkRetrainDone t _ lanesIn lanesOut lost => decide (t < 2 ^ 64) && (lanesIn ≤ 16 && lanesOut ≤ 16
    && lost.all (fun e => decide (e < 8 * 65536)))
  | .sidebandWordReceived t _ _ => decide (t < 2 ^ 64)
  | .class0Message t _ _ _ _ cause => decide (t < 2 ^ 64) && (cause < 16)
  | .heartbeatSend t => decide (t < 2 ^ 64)
  | .aliveWatchdogExpiry t => decide (t < 2 ^ 64)
  | .heartbeatReceived t h => decide (t < 2 ^ 64) && (h.frame < 2 ^ 48 && h.state < 8 && h.stage < 4 && h.cause < 8)
  | .pairDetectionSample t lastEdge => decide (t < 2 ^ 64) && (lastEdge ≤ t)
  | .pairTownRaise t => decide (t < 2 ^ 64)
  | .peerRstRelease t => decide (t < 2 ^ 64)
  | .pairTickMessage t m => decide (t < 2 ^ 64) && (m.frame < 2 ^ 48 && m.ts < 2 ^ 64 && m.tickState < 8 && m.grants < 256)
  | .handoverMessage t _ => decide (t < 2 ^ 64)
  | .rowExchange t hdr words => decide (t < 2 ^ 64) && (hdr.body.length == 16 && words.length ≤ 4096)
  | .tileStateRecord t _ rec => decide (t < 2 ^ 64) && (rec.body.length == 64)
  | .driftMirror t _ _ => decide (t < 2 ^ 64)
  | .forwardedReply t _ _ m => decide (t < 2 ^ 64) && m.wf
  | .pairParamSync t _ m => decide (t < 2 ^ 64) && syncWf m
  | .pairBundleTransfer t _ m => decide (t < 2 ^ 64) && m.wf
  | .pllLocked t _ => decide (t < 2 ^ 64)
  | .pciePerstNChange t _ => decide (t < 2 ^ 64)
  | .pegSsNFall t _ => decide (t < 2 ^ 64)
  | .ringDmaError t _ => decide (t < 2 ^ 64)

end Sys2Proof
end

