-- ==== Sys2Proof/Tests/Slice0.lean ====
section
/-!
SUPPORT. The author's own tests: what WellFormed refuses, states and operands that meet the hypotheses of the statements,
clause by clause and at the ends of their ranges, and a few results worked out by hand from the spec's tables.
-/
namespace Sys2Proof.Tests
open Sys2Proof.Machine

/- One kernel evaluation at a time keeps the memory of the check low. -/
set_option Elab.async false

/-! What WellFormed refuses. -/

def late : Time := 2 ^ 64
def beat : Heartbeat := { frame := 0, state := 1, stage := 0, leaving := false, cause := 0, tagOk := true }
def tickMsg : TickMsg := { frame := 7, numbered := true, ts := 0, tickState := 2, d2 := false, grants := 0, tagOk := true }
def peer : PeerJoin :=
  { joined := false, sole := false, devId := List.replicate 16 0, peerId := List.replicate 16 0, identity := List.replicate 97 0
    ephemeral := List.replicate 97 0, sig := List.replicate 96 0, ownerHashes := [], revision := 0, fwVersion := 0, memGib := 8
    rolePref := 0, nextFrame := 0 }

def lateRows1 : List Instr :=
  [.porstNAssert late 0, .porstNRelease late 0 0 false, .brownOut late .vddC 0, .powerLoss late, .oscSettleExpiry late,
    .crystalCheckDone late 0, .guylineTrainDone late 0 0, .memoryTrainDone late 0 false [], .bootImageStart late,
    .pfwNAssert late 0, .pfwNRelease late 0, .functionLevelReset late 0, .hotReset late, .referenceLost late .pcie,
    .referenceRestored late .pcie, .clockSwitchDone late .a, .rcTrimMeasurement late 0, .internalTick late,
    .fsyncEdge late [], .fsyncDeadlineMissed late, .freeRunTick late, .frameStartMessage late 0 0, .slotStart late [],
    .pointerReset late 0, .leadSlotStart late, .cutTime late, .frameClose late, .mosaicRowComplete late 0,
    .deliveryDone late 0, .portImageDone late 0]

def lateRows2 : List Instr :=
  [.tileWakeExpiry late 0, .biasDacUpdate late, .biasSettleExpiry late 0 .vdet, .biasFault late 0 .vdet, .tileFault late 0,
    .tenOffExpiry late 0, .biasCodeWrite late 0 .vdet 0, .tpFvRise late 0 0, .digitalLine late 0 [], .tpFvFall late 0,
    .tpClkStop late 0, .adcRefenWrite late false, .refReadyExpiry late, .hkRoundDue late, .hkEntryDone late [],
    .hkInjFireWrite late 0, .cDieSensorMeasure late [], .hkQueueRead late 0, .hkQEnWrite late false,
    .throttleStage2Timer late, .thmResumeWrite late 0 false, .flyPulseEnd late 0, .flyPosChange late 0 false 0,
    .closeTimeout late 0, .openTimeout late 0, .flysheetComputeDone late 0, .inhibitWindowOpen late 0,
    .inhibitWindowEnd late 0, .flyTmaxExpiry late 0, .calImportTmoExpiry late]

def lateRows3 : List Instr :=
  [.activationStart late, .activationCopyDone late false, .activationHoldEnd late, .memoryTagFail late 0 false,
    .sqTailDoorbell late 0 0 [], .cqHeadDoorbell late 0 0, .eqHeadDoorbell late 0 0, .ringEnable late 0, .ringDisable late 0,
    .barRegisterWrite late 0 .sqBase 0, .irqHoldoffExpiry late 0 0, .commandTimeout late 0 0, .dpDataAccess late 0 .read,
    .dpBurstAccess late 0 0 .read, .pegCommandFrame late 0 [], .pegDataWriteFrame late 0 0 [], .pegDataReadFrame late 0 0 0,
    .nop late 0 0, .getInfo late 0 0 0, .getRecovery late 0 0 0, .resetContext late 0 0, .abort late 0 0, .eventArm late 0 0,
    .paramRead late 0 0 0, .paramWrite late 0 0, .paramCommit late 0 0, .commitEvaluation late, .commitNoTickTimeout late,
    .streamStart late 0 0, .streamStop late 0 0]

def lateRows4 : List Instr :=
  [.streamStopComplete late 0 0, .bufferBind late 0 0, .bufferRelease late 0 0, .calImportBegin late 0 0,
    .calImportChunk late 0 0 [], .calImportEnd late 0 0, .calStatus late 0 0 0, .flyCycle late 0 0, .flyInhibit late 0 0,
    .driftStatus late 0 0 0, .dataRead late 0 0 0, .dataWrite late 0 0 [], .nvRead late 0 0 0, .nvWrite late 0 0 [],
    .nvCommit late 0 0, .nvUnlock late 0 0, .nvAutocommitExpiry late, .nvCommitDone late 0 0, .ledgerRead late 0 0 0,
    .ledgerClosePeriod late 0 0, .ledgerHostTimeWrite late 0, .operatingMinute late, .ledgerSecond late,
    .authChallenge late 0 0 0, .authResponse late 0 0, .authChallengeExpiry late 0, .authLockoutEnd late 0,
    .attest late 0 0 0, .ownerProvision late 0 0, .fwDownload late 0 0 []]

def lateRows5 : List Instr :=
  [.fwVerify late 0 0, .fwActivate late 0 0, .fwRestartDelay late, .fwConfirm late 0 0, .fwConfirmTimeout late,
    .pairJoin late 0 0 peer, .pairJoinTimeout late, .pairStatus late 0 0 0, .pairHandover late 0 0, .perfSnapshot late 0 0 0,
    .snapshotWritten late, .sampleRead late 0 0 0, .debugUnlock late 0 0 0, .debugNonceExpiry late, .debugTimeExpiry late,
    .tapInstruction late .bypass, .dbgAccess late (.halt 0), .lockRevoked late 0 0, .auxSubmitWrite late 0 0 0,
    .auxProcessStart late, .auxFrameDone late, .replayStart late 0, .captureStart late 0, .replayStop late 0,
    .replayFrameStart late, .replayFrameDone late, .pegXferWrite late 0 0, .pegPrdyHigh late 0 0, .pegPrdyTimeout late 0,
    .pegTransferDone late 0]

def lateRows6 : List Instr :=
  [.pegSlaveByte late 0 0, .pegSsNRise late 0, .perfEvselWrite late 0 0 0, .perfCtlWrite late 0 0, .perfClearWrite late 0,
    .sampleCfgWrite late 0, .linkFlitReceived late .fc 0, .linkAckTimer late .fc, .linkAckTimeout late .fc,
    .linkReplayWindow late .fc, .linkRetrainDone late .fc 0 0 [], .sidebandWordReceived late .fc 0,
    .class0Message late .fc 0 0 0 0, .heartbeatSend late, .aliveWatchdogExpiry late, .heartbeatReceived late beat,
    .pairDetectionSample late 0, .pairTownRaise late, .peerRstRelease late, .pairTickMessage late tickMsg,
    .handoverMessage late ⟨true, .asked⟩, .rowExchange late ⟨true, []⟩ [], .tileStateRecord late 0 ⟨true, []⟩,
      .driftMirror late 0 ⟨true, .snapshot 0 []⟩,
    .forwardedReply late true 0 .reset, .pairParamSync late true (.values []), .pairBundleTransfer late true .finish, .pllLocked late .a,
    .pciePerstNChange late false, .pegSsNFall late 0]

def lateRows7 : List Instr :=
  [.ringDmaError late 0]

/-- No row takes an instant beyond the 64-bit time base. -/
theorem test_wf_time :
    (lateRows1 ++ lateRows2 ++ lateRows3 ++ lateRows4 ++ lateRows5 ++ lateRows6 ++ lateRows7).all (fun i => !i.wf) = true := by
  decide +kernel

/-- An operand beyond its field, one for each check. -/
theorem test_wf_operands : ([
    .crystalCheckDone 0 (2 ^ 32), .guylineTrainDone 0 17 0, .guylineTrainDone 0 16 5,
    .memoryTrainDone 0 32 true (List.replicate 8 (.trained, 0)), .memoryTrainDone 0 8 true (List.replicate 7 (.trained, 0)),
    .memoryTrainDone 0 8 true (List.replicate 8 (.trained, 32)), .rcTrimMeasurement 0 (2 ^ 32),
    .fsyncEdge 4 [true, true], .frameStartMessage 0 (2 ^ 48) 0, .frameStartMessage 0 0 (2 ^ 64), .slotStart 0 [],
    .mosaicRowComplete 0 (2 ^ 14), .tpFvRise 0 0 (2 ^ 16), .hkEntryDone 0 [2 ^ 32], .cDieSensorMeasure 0 [],
    .cDieSensorMeasure 0 (List.replicate 8 4096), .flyPosChange 4 0 true 5, .memoryTagFail 0 (2 ^ 34) true,
    .memoryTagFail 0 1 true, .sqTailDoorbell 0 0 (2 ^ 12) [], .sqTailDoorbell 0 0 0 [0], .cqHeadDoorbell 0 0 (2 ^ 12),
    .eqHeadDoorbell 0 0 (2 ^ 10), .dpBurstAccess 0 0 4096 .read, .pegDataWriteFrame 0 0 (2 ^ 40) [], .pegDataReadFrame 0 0 (2 ^ 40) 0,
    .pegDataReadFrame 0 0 0 (2 ^ 16), .nvCommitDone 0 6 0, .nvCommitDone 0 0 3, .pairJoin 0 0 0 { peer with devId := [] },
    .pairJoin 0 0 0 { peer with peerId := [] }, .pairJoin 0 0 0 { peer with ownerHashes := [[]] },
      .pairJoin 0 0 0 { peer with identity := [] },
    .pairJoin 0 0 0 { peer with ephemeral := [] }, .pairJoin 0 0 0 { peer with sig := [] }, .dbgAccess 0 (.mem (2 ^ 34)),
    .dbgAccess 0 (.param (2 ^ 16)), .dbgAccess 0 (.coreReg 0 (2 ^ 16)), .dbgAccess 0 (.breakpoint 0 (2 ^ 32)),
    .linkRetrainDone 0 .fc 17 4 [], .linkRetrainDone 0 .fc 16 17 [], .linkRetrainDone 0 .fc 16 4 [8 * 65536],
    .class0Message 0 .fc 0 0 0 16, .heartbeatReceived 0 { beat with frame := 2 ^ 48 }, .heartbeatReceived 0 { beat with state := 8 },
    .heartbeatReceived 0 { beat with stage := 4 }, .heartbeatReceived 0 { beat with cause := 8 }, .pairDetectionSample 4 5,
    .pairTickMessage 0 { tickMsg with frame := 2 ^ 48 }, .pairTickMessage 0 { tickMsg with ts := 2 ^ 64 },
    .pairTickMessage 0 { tickMsg with tickState := 8 }, .pairTickMessage 0 { tickMsg with grants := 256 }, .rowExchange 0 ⟨true, []⟩ [],
    .tileStateRecord 0 0 ⟨true, []⟩, .forwardedReply 0 true 0 (.reply []), .forwardedReply 0 true 0 (.event []),
    .forwardedReply 0 true 0 (.command [] []), .pairParamSync 0 true (.values [(2 ^ 16, 0)]),
    .pairParamSync 0 true (.commit 0 [(2 ^ 16, 0)]), .pairParamSync 0 true (.verdict 0 (2 ^ 32)),
    .pairParamSync 0 true (.gens [(2 ^ 11, 0)]), .pairParamSync 0 true (.inhibit 0 (2 ^ 16) 0), .pairBundleTransfer 0 true (.header []),
    .pairBundleTransfer 0 true (.result 256)] : List Instr).all (fun i => !i.wf) = true := by
  decide +kernel

/-- Operands at the ends of their fields are well formed. -/
theorem test_wf_good : ([
    .internalTick (2 ^ 64 - 1), .guylineTrainDone 0 16 4, .rcTrimMeasurement 0 (2 ^ 32 - 1), .fsyncEdge 10 [true, false],
    .hkEntryDone 0 [2 ^ 32 - 1],
    .dpBurstAccess 0 0 4095 .read, .linkRetrainDone 0 .fc 16 4 [8 * 65536 - 1], .rowExchange 0 ⟨true, List.replicate 16 0⟩ [],
    .forwardedReply 0 true 0 (.event (List.replicate 64 0)), .forwardedReply 0 true 0 (.reply (List.replicate 16 0)),
    .pairParamSync 0 true (.gens [(2 ^ 11 - 1, 31)])] : List Instr).all
    (fun i => i.wf) = true := by
  decide +kernel

/-- No row of the table gives bits. -/
theorem test_no_word_spells_a_command : decodeTableWord 16 0 = none ∧ State.reset.withFetchWord 16 0 = State.reset := ⟨rfl, rfl⟩

/-! Small states. -/

def run : State := { State.reset with boot := .running, clk := { State.reset.clk with perst := true, pllC := .locked } }

/-- The same state with the guyline up. -/
def joined (s : State) : State := { s with links := { s.links with gln := .up } }

/-- A command in flight in CTX0, with tag 5. -/
def cmd (op : Nat) (payload : Bytes) (sg : Nat := 0) (w : Wait := .notStarted) : Cmd :=
  { opcode := op, tag := 5, ordered := false, fence := false, eventOnDone := false, hseq := 0, deadline := none, sgAddr := sg
    sgEntries := if sg = 0 then 0 else 1, payload, order := 0, fetched := 0, sampled := false, wait := w }

/-- A state with that command in flight. -/
def host (c : Cmd) (s : State := run) : State := s.modCtx 0 fun k => { k with ringsOn := true, inflight := [c] }

/-- The command starts at the instant 10. -/
def starts (s : State) (c : Cmd) : Bool := (s.advance 10).starting 0 5 c.opcode == some c

/-- A frame 3 with timestamp 100 that is being read, with no tile enabled. -/
def frame3 : Frame :=
  { num := 3, ts := 100, period := 0, accepted := false, freeRun := false, d2 := false, paired := false, lead := false, hold := false
    tfStopped := false, stage := 0, warn := false, tiles := List.replicate 8 .idle, deliveries := [], ports := [none, none]
    portsDone := [true, true], rowsDone := [], stats := [], image := [], body := none, bufs := [], fuse := []
    images := [] }
def reading3 : State := { run with frames := [frame3], seq := { run.seq with frame := some (3, 100), slot := 0, cdie := none } }

/-! The queue, the header, the register file and memory. -/

theorem witness_StepRunsTheFrontCommand :
    ({ run with pending := [.internalTick 4, .nop 5 0 0] } : State).pending = .internalTick 4 :: [.nop 5 0 0]
      ∧ run.pending = [] := by decide +kernel

theorem witness_CommandsLeaveTheQueueAlone : exec (.ledgerSecond 4) run = .next (run.advance 4) := rfl

theorem witness_TimeBaseOnlyRestartsAtPorstRelease :
    State.reset.boot = .inReset ∧ ({ State.reset with boot := .unpowered } : State).boot = .unpowered
      ∧ exec (.internalTick 4) run = .next (run.advance 4) := ⟨rfl, rfl, rfl⟩

theorem witness_EveryStepKeepsCanonicalForm :
    State.reset.Inv ∧ step State.reset = .next State.reset := by
  constructor
  · constructor <;> decide
  · rfl

theorem witness_HeaderAndBytesAgree :
    ({ opcode := 0xFFFF, tag := 0xFFFF, ctx := 7, flags := 1, inlineLen := 8191, hseq := 2 ^ 32 - 1, timeout := 9, sgAddr := 2 ^ 64 - 1
       sgEntries := 3, reserved := 0 } : Header).fits = true ∧ (List.replicate 32 (0xA5 : Byte)).length = 32 := by decide +kernel

theorem witness_WritesReadBackAndLeaveTheRest :
    cellsWf run.mem.cells = true ∧ regsWf run.regs = true ∧ 7 < Param.tileEn.row.count ∧ Param.tileEn.id 6 ≠ Param.tileEn.id 7 := by
  decide +kernel

theorem witness_SensingReachesNoStore : sensing (.hkRoundDue 4) = true ∧ exec (.hkRoundDue 4) run = .next (run.advance 4) := ⟨rfl, rfl⟩

/-! Helpers: what a command leaves, and whether it leaves just that. -/

def after (i : Instr) (s : State) : State :=
  match exec i s with
  | .next u => u
  | _ => s
def goes (i : Instr) (s u : State) : Bool :=
  match exec i s with
  | .next v => v == u
  | _ => false

/-! Ticks and frames. -/

def ticking (k : TickState) : State := { run with tick := { run.tick with running := true, state := k, next := 5, last := some 100 } }
def halved (k : TickState) : State := { ticking k with tick := { (ticking k).tick with d2 := true, skip := true } }
def partner (k : TickState) : State := { ticking k with pair := { (ticking k).pair with mode := .paired, role := 1 } }

theorem witness_TicksComeFromTheirSource_internal :
    (ticking .internal).tick.running = true ∧ goes (.internalTick 4) (ticking .internal) ((ticking .internal).advance 4) = true
      ∧ (halved .internal).tick.next ≤ max (halved .internal).time 5 ∧ (halved .internal).tick.skip = true
      ∧ (after (.internalTick 5) (halved .internal)).tick.next = 16666675
      ∧ (partner .internal).pair.role = 1 ∧ (after (.internalTick 5) (partner .internal)).tick.next = 16666675
      ∧ (ticking .internal).tick.d2 = false ∧ (ticking .internal).ownTicks = true := by decide +kernel

/-- An edge with the timestamp edgeAt is accepted; the sample at edgeAt + 20 is its third. -/
def edgeAt : Time := 100 + 10 * (ticking .locked).par .fsyncMinPeriod
/-- Two active samples of FSYNC after three inactive ones. -/
def rising (k : TickState) (s : State := ticking k) : State :=
  { s with tick := { s.tick with fsLevel := true, fsRun := 2, fsArmed := true } }

theorem witness_TicksComeFromTheirSource_edges :
    (rising .freeRun).tooEarly (edgeAt - 1) = true ∧ (rising .locked).tooEarly edgeAt = false ∧ (rising .locked).ownTicks = true
      ∧ (rising .locked).tick.fsArmed = true ∧ (rising .locked).tick.fsLevel = !((rising .locked).par .fsyncPol == 1)
      ∧ 2 ≤ (rising .locked).tick.fsRun ∧ (rising .internal).tick.state = .internal
      ∧ (after (.fsyncEdge (edgeAt + 19) [true]) (rising .freeRun)).tick.state = .resync
      ∧ (after (.fsyncEdge (edgeAt + 20) [true]) (rising .freeRun)).tick.state = .locked
      ∧ (after (.fsyncEdge (edgeAt + 19) [true]) (rising .locked)).par .fsyncEarlyCnt = 1
      ∧ (after (.fsyncEdge (edgeAt + 20) [true]) (rising .locked)).tick.last = some edgeAt
      ∧ (after (.fsyncEdge (edgeAt + 20) [true]) (rising .locked (halved .locked))).tick.suppressed = some edgeAt
      ∧ (rising .locked (halved .locked)).tick.d2 = true ∧ (rising .locked (halved .locked)).tick.skip = true
      ∧ regsWf (rising .freeRun).regs = true ∧ (ticking .freeRun).tick.next ≤ max (ticking .freeRun).time 5
      ∧ (ticking .freeRun).ownTicks = true := by decide +kernel

theorem witness_TicksComeFromTheirSource_samples :
    false = ((ticking .locked).par .fsyncPol == 1) ∧ (ticking .locked).tick.fsArmed = false
      ∧ (rising .locked).tick.fsLevel ≠ false
        ∧ ({ rising .locked with tick := { (rising .locked).tick with fsRun := 1 } } : State).tick.fsRun < 2
      ∧ (after (.fsyncEdge (edgeAt + 20) [false]) (rising .locked)).tick.fsRun = 1
      ∧ (after (.fsyncEdge (edgeAt + 20) [true]) (ticking .locked)).tick.last = some 100 := by decide +kernel

def lossy (k : TickState) (policy : Nat) : State := (ticking k).setPar .fsyncLossPolicy 0 policy

theorem witness_TicksComeFromTheirSource_deadline :
    (lossy .locked 1).deadline = some (100 + 2 * (lossy .locked 1).expected)
      ∧ (lossy .resync 0).deadline = some (100 + 2 * (lossy .resync 0).expected)
      ∧ (lossy .waitFirst 0).deadline = some (2 * (lossy .waitFirst 0).expected) ∧ (lossy .waitFirst 0).par .fsyncLossPolicy = 0
      ∧ (after (.fsyncDeadlineMissed (120 + 2 * (lossy .locked 1).expected)) (lossy .locked 1)).tick.state = .hold
      ∧ (after (.fsyncDeadlineMissed (119 + 2 * (lossy .locked 1).expected)) (lossy .locked 1)).tick.state = .locked := by decide +kernel

theorem witness_TicksComeFromTheirSource_start :
    (let s := { reading3 with links := { reading3.links with gln := .up } }
     s.linkUp .fc = true ∧ s.seq.frame = some (3, 100) ∧ (after (.frameStartMessage 200 3 100) s).seq.cdie = some (3, 100)
      ∧ s.seq.frame ≠ some (4, 100) ∧ (after (.frameStartMessage 200 4 100) s).seq.cdie = none)
      ∧ reading3.linkUp .fc = false ∧ (after (.frameStartMessage 200 3 100) reading3).seq.cdie = none := by decide +kernel

def started3 : State :=
  reading3.modCtx 2 fun k => { k with mv := { k.mv with started := true }, sets := [{ state := .free, entries := [⟨0, 0⟩] }] }

theorem test_NumberedTicksOpenOneFrame :
    ((started3.numberedTick 500 none true false).frames.map (·.num)) = [3, 0]
      ∧ ((started3.numberedTick 500 none true false).frames.map (·.deliveries)) = [[], [{ ctx := 2, set := some 0, done := false }]]
      ∧ (started3.numberedTick 500 none true false).tick.nextFrame = 1 := by decide +kernel

/-! The close of a frame and its deliveries. -/

/-- Frame 3 with one tile of one mosaic row, which was not read. -/
def rowed3 : State :=
  let f := { frame3 with tiles := (List.replicate 8 .idle).set 0 { FrameTile.idle with enabled := true } }
  { reading3 with frames := [f], tick := { reading3.tick with mosaicH := 1, mosaicW := 64 } }

/-- Frame 2 is closed and owed to CTX1 and to port 0. -/
def closed2 : State :=
  let f := { frame3 with num := 2, body := some [], deliveries := [{ ctx := 1, set := some 0, done := false }], ports := [some 1, none]
                         portsDone := [false, true] }
  let s : State := { run with frames := [f], outs := run.outs.modify 0 fun p => { p with sending := some 2, state := 2 } }
  s.modCtx 1 fun k => { k with sets := [{ state := .filling, entries := [] }] }

theorem witness_FramesCloseAndLeave_close :
    run.reading = none ∧ reading3.reading = some frame3 ∧ (∀ g ∈ reading3.frames, g.num = frame3.num → g.body = none)
      ∧ (after (.cutTime (reading3.cutOf 100)) reading3).reading = none ∧ (after (.frameClose 5) reading3).reading = none
      ∧ goes (.cutTime (reading3.cutOf 100 - 1)) reading3 (reading3.advance (reading3.cutOf 100 - 1)) = true
      ∧ reading3.openRows frame3 = [] ∧ reading3.frameWhole frame3 = true
      ∧ rowed3.frameWhole { frame3 with tiles := (List.replicate 8 .idle).set 0 { FrameTile.idle with enabled := true } } = false := by
  decide +kernel

theorem witness_FramesCloseAndLeave_rows :
    (rowed3.reading.map (rowed3.openRows ·)) = some [0]
      ∧ (rowed3.reading.map fun f => (rowed3.tilesOfRow f 0).map fun e => rowed3.rowFate e.1 (f.tile e.1) e.2) = some [.notYet]
      ∧ goes (.mosaicRowComplete 5 0) rowed3 (rowed3.advance 5) = true
      ∧ (({ rowed3 with frames := [frame3] } : State).tilesOfRow frame3 0) = []
      ∧ ((after (.mosaicRowComplete 5 0) { rowed3 with frames := [frame3] }).frames.map (·.rowsDone)) = [[0]] := by decide +kernel

theorem witness_FramesCloseAndLeave_leave :
    (closed2.frames.find? fun f => f.body.isSome && f.deliveries.any fun d => d.ctx == 1 && !d.done) = closed2.frames.head?
      ∧ (closed2.frames.map (·.body)) = [some []] ∧ (1 : Ctx).val < closed2.ctxs.length ∧ (0 : Nat) < (closed2.ctx 1).sets.length
      ∧ (closed2.outs.getD 1 .reset).sending = none ∧ (closed2.outs.getD 0 .reset).sending = some 2
      ∧ closed2.frameOf 2 = closed2.frames.head? ∧ goes (.portImageDone 5 1) closed2 (closed2.advance 5) = true := by decide +kernel

/-! Tiles and their ports. -/

/-- Tile 0 is on: analog, or digital. -/
def tiled (m : TileSt) : State := ({ run with tiles := run.tiles.set 0 m } : State).setPar .tileEn 0 1
def warm : TileSt := { TileSt.reset with mode := .ready, ten := true, control := true, woken := true }
def slotted (m : TileSt) (slot : Nat) : State :=
  { tiled m with frames := [frame3], seq := { run.seq with frame := some (3, 100), slot, cdie := none } }

/-- The end of tile 0's last slot in frame 3. -/
def lastEnd : Time := (slotted warm 0).slotAt 100 ((slotted warm 0).slotsOf 0)
def leading (m : TileSt) : State := { tiled m with seq := { run.seq with lead := some 100 } }

theorem witness_SlotsReadRowsInOrder :
    (slotted warm 0).pair.rewind = none ∧ (slotted warm 0).seq.slot < (slotted warm 0).slots ∧ (slotted warm 0).tiles.length = 8
      ∧ regsWf (slotted warm 0).regs = true ∧ (slotted warm 0).slotAt 100 0 = 100 ∧ (slotted warm 0).drives 0 = true
      ∧ (slotted warm 0).isDigital 0 = false ∧ (slotted warm 0).seq.slot < (slotted warm 0).tileRows 0
      ∧ ((slotted warm 0).tile 0).control = true
      ∧ (let s := (slotted warm 0).setPar .actCols 0 64
         (after (.slotStart 100 []) s).seq.slot = 1 ∧ ((after (.slotStart 100 []) s).tile 0).rowPtr = 1)
      ∧ goes (.slotStart 99 []) (slotted warm 0) ((slotted warm 0).advance 99) = true
      ∧ (slotted warm 5000).slots ≤ 5000 ∧ goes (.slotStart 4 []) (slotted warm 5000) ((slotted warm 5000).advance 4) = true := by
  decide +kernel

theorem witness_SlotsReadRowsInOrder_pointer :
    (slotted warm 0).seq.pointers.getLsbD 0 = false ∧ (slotted warm 0).seq.sampling = []
      ∧ (after (.pointerReset lastEnd 0) (slotted { warm with integ := some 9 } 0)).seq.pointers.getLsbD 0 = true
      ∧ ((after (.pointerReset lastEnd 0) (slotted { warm with integ := some 9, rowPtr := 9 } 0)).tile 0).rowPtr = 0
      ∧ ((after (.pointerReset lastEnd 0) (slotted { warm with integ := some 9 } 0)).tile 0).integ.isNone = true
      ∧ goes (.pointerReset (lastEnd - 1) 0) (slotted warm 0) ((slotted warm 0).advance (lastEnd - 1)) = true := by decide +kernel

theorem witness_SlotsReadRowsInOrder_lead :
    (leading warm).seq.lead = some 100 ∧ (leading warm).tileOn 0 = true ∧ (leading warm).tileOn 1 = false
      ∧ ((after (.leadSlotStart 100) (leading warm)).tile 0).integ = some 0
      ∧ goes (.leadSlotStart 99) (leading warm) ((leading warm).advance 99) = true
      ∧ ((after (.leadSlotStart 100) (leading { warm with vdet := { Bias.reset with settled := false } })).tile 0).unsettled = true := by
  decide +kernel

def waking : TileSt := { TileSt.reset with mode := .waking, ten := true }
def slewing : TileSt := { warm with ramp := 2, vdet := { Bias.reset with level := 65536000 }, vguard := { Bias.reset with level := 7 } }
def arrived : TileSt := { warm with mode := .biasing, vdet := { level := 0, settled := false, arrived := some 100, fault := false } }
def lowered : TileSt := { warm with ramp := 3, zeroAt := some 100, control := false }

theorem witness_TilePowerSequence :
    ((tiled waking).tile 0).mode = .waking ∧ ((tiled waking).tile 0).ramp = 0 ∧ 0 < (tiled waking).par .tileWake 0
      ∧ ((after (.tileWakeExpiry (1000 * (tiled waking).par .tileWake 0) 0) (tiled waking)).tile 0).mode = .biasing
      ∧ ((after (.tileWakeExpiry (1000 * (tiled waking).par .tileWake 0 - 1) 0) (tiled waking)).tile 0).mode = .waking
      ∧ (tiled warm).tiles.length = 8 ∧ (tiled warm).seq.dacAt = none ∧ ((tiled warm).tile 0).ramp = 0
      ∧ ((tiled slewing).tile 0).ramp = 2 ∧ ((after (.biasDacUpdate 4) (tiled slewing)).tile 0).vdet.level = 0
      ∧ ((after (.biasDacUpdate 4) (tiled slewing)).tile 0).vguard.level = 7
      ∧ ((after (.biasDacUpdate 4) (tiled slewing)).tile 1) = (tiled slewing).tile 1 ∧ ((tiled warm).tile 1).mode = .off
      ∧ ((tiled arrived).tile 0).bias .vdet = arrived.vdet ∧ (tiled arrived).tileOn 0 = true
      ∧ ((after (.biasSettleExpiry 50100 0 .vdet) (tiled arrived)).tile 0).mode = .ready
      ∧ ((after (.biasSettleExpiry 50099 0 .vdet) (tiled arrived)).tile 0).mode = .biasing
      ∧ ((tiled lowered).tile 0).zeroAt = some 100 ∧ ((tiled lowered).tile 0).ramp ≠ 0
      ∧ ((after (.tenOffExpiry (100 + 500 * (tiled lowered).dacPeriod) 0) (tiled lowered)).tile 0).ten = false
      ∧ ((after (.tenOffExpiry (99 + 500 * (tiled lowered).dacPeriod) 0) (tiled lowered)).tile 0).ten = true := by decide +kernel

def faulty : TileSt := { warm with vdet := { Bias.reset with fault := true } }

/-- Every output short of its code: only VGUARD moves while the tile powers up, all three once it is there. -/
def powering (guard : Nat) : TileSt :=
  { warm with mode := .biasing, vguard := { Bias.reset with level := guard } }

theorem witness_TilePowerSequence_order :
    let s (guard : Nat) := (((tiled (powering guard)).setPar .vguardCode 0 1).setPar .vdetCode 0 1).setPar .vskimCode 0 1
    let g := (s 0).biasTarget 0 .vguard
    ((s 0).tile 0).mode = .biasing ∧ ((s 0).tile 0).ramp = 0 ∧ g ≠ 0 ∧ g ≤ (s 0).par .biasSlew 0 * 655360
      ∧ ((after (.biasDacUpdate 4) ((s 0).setPar .biasSlew 0 0)).tile 0).vdet.level = 0
      ∧ ((after (.biasDacUpdate 4) (s 0)).tile 0).vguard.level = g
      ∧ ((after (.biasDacUpdate 4) (s 0)).tile 0).vguard.arrived = some 4
      ∧ ((after (.biasDacUpdate 4) (s g)).tile 0).vskim.level ≠ 0
      ∧ ((tiled { slewing with ramp := 1 }).tile 0).ramp = 1
      ∧ ((after (.biasDacUpdate 4) (tiled { slewing with ramp := 1 })).tile 0).vdet.level
          = 65536000 - (tiled warm).par .biasSlew 0 * 655360 := by decide +kernel

theorem witness_BiasCodesAndFaults :
    (tiled warm).tileOn 0 = true ∧ regsWf (tiled warm).regs = true
      ∧ (joined (tiled warm)).fdieUp = true ∧ (tiled warm).isPartner = false
      ∧ (after (.biasCodeWrite 4 0 .vskim 0xFFFF) (joined (tiled warm))).par (biasParam .vskim) 0 = 0xFFFF
      ∧ (after (.biasCodeWrite 4 0 .vskim 0xFFFF) (tiled warm)).wstatus = .failedFault
      ∧ (partner .internal).isPartner = true
      ∧ (after (.biasCodeWrite 4 0 .vskim 0xFFFF) (joined (partner .internal))).wstatus = .notPermitted
      ∧ ((after (.biasFault 4 0 .vguard) (tiled warm)).tile 0).vguard.fault = true
      ∧ ((tiled faulty).tile 0).bias .vdet = faulty.vdet ∧ ((tiled faulty).tile 0).faulted = false
      ∧ ((after (.tileFault 4 0) (tiled faulty)).tile 0).mode = .fault := by decide +kernel

/-- Tile 0 is digital and frame 3 is being read. -/
def digital (d : DigPort) : State := (slotted { warm with dig := d } 0).setPar .tileKind 0 1
def live : DigPort := { fv := true, seen := true, dropped := false, lines := 0, times := [], clk := 0 }

theorem witness_DigitalFramesArriveWhole :
    (digital .reset).readsDigital 0 = true ∧ (digital .reset).reading ≠ none ∧ ((digital .reset).tile 0).dig.seen = false
      ∧ ((after (.tpFvRise 4 0 65536) (digital .reset)).tile 0).dig = live
      ∧ ((after (.tpFvRise 4 0 0) (digital live)).tile 0).dig.dropped = true
      ∧ (digital live).lineWords 0 ≠ 0 ∧ (digital live).tileRows 0 ≠ 0
      ∧ (List.replicate ((digital live).lineWords 0) (0 : BitVec 16)).length = (digital live).lineWords 0
      ∧ ((after (.digitalLine 4 0 []) (digital live)).tile 0).dig.dropped = true
      ∧ ((after (.tpFvFall 4 0) (digital live)).tile 0).dig.dropped = true
      ∧ ((after (.tpFvFall 4 0) (digital { live with lines := (digital live).tileRows 0 })).tile 0).dig.dropped = false
      ∧ ((after (.tpClkStop 4 0) (digital live)).tile 0).dig.dropped = true := by decide +kernel

/-! Housekeeping and thermal control. -/

def hkOf (f : Hk → Hk) (s : State := run) : State := { s with hk := f { s.hk with on := true, due := 100, period := 10 } }

theorem witness_ReferenceBufferAndEntryResults :
    run.par .adcRefen = 0 ∧ (joined run).fdieUp = true ∧ (after (.adcRefenWrite 4 true) (joined run)).hk.refAt = some 4
      ∧ (after (.adcRefenWrite 4 true) run).wstatus = .failedFault
      ∧ (after (.adcRefenWrite 4 false) (partner .internal)).wstatus = .notPermitted
      ∧ (let s := ({ run with hk := { run.hk with refAt := some 4 } } : State).setPar .adcRefen 0 1
         s.par .adcRefen = 1 ∧ (after (.refReadyExpiry 2000004) s).hk.refReady = true
          ∧ (after (.refReadyExpiry 2000003) s).hk.refReady = false) := by decide +kernel

/-- Entries 14, an own channel, and 8, a channel of the C-die's, at the start of a round. -/
def round (l : List Nat) (remote : Option (Nat × Time)) : State :=
  hkOf fun h => { h with round := l, last := List.replicate 32 0, remote := List.replicate 8 remote }

theorem witness_ReferenceBufferAndEntryResults_entries :
    (let s := round [14, 8] none
     let q := s.setPar .hkQEn 0 1
     s.hk.on = true ∧ s.hk.inj = none ∧ entryChannel 14 none = 14 ∧ entryChannel 8 none = 8 ∧ s.hk.last.length = 32
        ∧ s.par .hkQEn = 0 ∧ q.par .hkQEn = 1 ∧ (after (.hkEntryDone 4 [3000]) s).hk.round = [8]
        ∧ (after (.hkEntryDone 4 [3000]) s).hk.last.getD 14 0 = 10 + 2 ^ 25 ∧ (after (.hkEntryDone 4 [3000]) q).hk.queue = [10 + 4096 * 14]
        ∧ (after (.hkEntryDone 4 [3000]) { q with hk := { q.hk with queue := List.replicate 128 7 } }).hk.queue
            = 0x40007 :: (List.replicate 126 7 ++ [10 + 4096 * 14]))
      ∧ (after (.hkEntryDone 4 []) (round [8] none)).hk.last = List.replicate 32 0
      ∧ (after (.hkEntryDone 2000000 []) (round [8] (some (9, 0)))).hk.last.getD 8 0 / 2 ^ 24 = 2
      ∧ (after (.hkEntryDone 2000001 []) (round [8] (some (9, 0)))).hk.last.getD 8 0 / 2 ^ 24 = 3
      ∧ within 22 29 (entryChannel 8 none) = false ∧ (after (.hkEntryDone 4 []) (round [8] none)).hk.round = []
      ∧ (let s := round [14] none
         let i : State := { s with hk := { s.hk with inj := some { entries := [8, 14], tile := none, start := 4, source := 0 } } }
         ((after (.hkEntryDone 4 []) i).hk.inj.map (·.entries)) = some [14] ∧ (after (.hkEntryDone 4 []) i).hk.round = [14]) := by
  decide +kernel

theorem witness_HousekeepingRoundsAndQueue :
    (let s := joined (hkOf fun h => { h with regular := [1], trig := 8, injected := [2], queue := [9] })
     s.hk.due ≤ max s.time 100 ∧ s.hk.round = [] ∧ s.hk.waiting = false ∧ s.hk.inj = none ∧ s.hk.newCfg = false ∧ s.fdieUp = true
      ∧ (after (.hkRoundDue 100) s).hk.round = [1] ∧ (after (.hkRoundDue 100) s).hk.due = 1000100
      ∧ goes (.hkInjFireWrite 4 8) s { s.advance 4 with wstatus := .badParam } = true
      ∧ goes (.hkInjFireWrite 4 15) (hkOf id) { (hkOf id).advance 4 with wstatus := .failedFault } = true
      ∧ bitOf s.hk.trig 3 = true ∧ injectedEntries s.hk.injected (some 7) = [2] ∧ injectedEntries [] none = []
      ∧ (after (.hkInjFireWrite 4 7) s).hk.inj = some { entries := [2], tile := some 7, start := 4, source := 3 }
      ∧ (after (.hkInjFireWrite 4 15) s).hk.inj = some { entries := [2], tile := none, start := 4, source := 3 }
      ∧ (after (.hkQEnWrite 4 false) s).hk.queue = [] ∧ (after (.hkQEnWrite 4 true) s).hk.queue = [9])
      ∧ (after (.hkQEnWrite 4 true) (hkOf id (partner .internal))).wstatus = .notPermitted
      ∧ (let s := hkOf fun h => { h with round := [1], waiting := false }
         s.hk.round ≠ [] ∧ (after (.hkRoundDue 100) s).hk.waiting = true)
      ∧ (hkOf fun h => { h with waiting := true }).hk.waiting = true
      ∧ (hkOf id run).links.gln = .down ∧ (joined (hkOf id)).links.gln ≠ .down
      ∧ goes (.cDieSensorMeasure 4 [4096]) (hkOf id) ((hkOf id).advance 4) = false := by decide +kernel

theorem witness_HousekeepingRoundsAndQueue_queue :
    let s := (hkOf fun h => { h with queue := [9] }).modCtx 0 fun k => { k with auth := some ⟨0, [], [], none⟩ }
    s.isAuth 0 = true ∧ s.streamControl 0 = true ∧ (after (.hkQueueRead 4 0) (joined s)).out = [.busRead 0 9] ∧ s.hk.queue = 9 :: []
      ∧ (after (.hkQueueRead 4 0) s).wstatus = .failedFault
      ∧ run.isAuth 0 = false ∧ (hkOf id).hk.queue = [] := by decide +kernel

theorem witness_ThrottleTimerAndResume :
    (let s : State := { run with thm := { run.thm with stage1At := some 4, stage := 1, throttle := true } }
     (after (.throttleStage2Timer 2000000004) s).thm.stage2Due = true ∧ (after (.throttleStage2Timer 2000000003) s).thm.stage2Due = false)
      ∧ run.thm.shutdown = false
      ∧ (let s : State := { run with thm := { run.thm with shutdown := true, gov := run.par .thmThrottle } }
         s.par .thmThrottle ≤ s.thm.gov ∧ (after (.thmResumeWrite 4 0 true) s).wstatus = .busy)
      ∧ (let s : State := { run with thm := { run.thm with shutdown := true, gov := run.par .thmThrottle - 1 } }
         s.thm.gov < s.par .thmThrottle ∧ (after (.thmResumeWrite 4 0 true) s).tick.d2 = true) := by decide +kernel

/-! The flysheet. -/

def flying (f : Drift → Drift) (s : State := run) : State := (s.modDrift 0 f).setPar .flyCfg 0 (s.par .flyCfg 0 ||| 1)
def cycle0 : Cycle :=
  { avg := 4, cmSrc := 0, dscr := false, pulse := 20, left := 0, used := 4, discarded := 0, moving := false, tsum := 0, msum := 0
    mcount := 0, acc := [], inSet := [], last := [], s1 := [], s2 := [], lastFrame := 0, map := none, cmNew := 0, cfg := false }

theorem witness_FlysheetEvents :
    (0 : Tile).val < run.drift.length
      ∧ (let s := flying fun k => { k with drive := .close, pulseEnd := 100 }
         (s.dr 0).drive ≠ .off ∧ ((after (.flyPulseEnd 100 0) s).dr 0).drive = .off
          ∧ ((after (.flyPulseEnd 99 0) s).dr 0).drive = .close)
      ∧ run.flyEn 0 = false ∧ ((flying fun k => { k with pos := some true }).dr 0).pos = some true := by decide +kernel

/-- The close pulse of tile 0 begins at 100; FLY_POS shows a level from an instant on, and another one is accepted. -/
def posed (pin : Bool) (since : Time) : State :=
  flying fun k => { k with step := .close, cycle := some cycle0, pulseAt := 100, posPin := pin, posSince := since, pos := some (!pin) }
def openLevel : Bool := !(flying id).parBit .flyCfg 0 1

theorem witness_FlysheetEvents_position :
    (let s := posed openLevel 40000100
     (s.dr 0).posPin = openLevel ∧ s.flyEn 0 = true ∧ (s.dr 0).pos ≠ some openLevel ∧ openLevel ≠ s.parBit .flyCfg 0 1
      ∧ (s.dr 0).step = .close ∧ (s.dr 0).cycle ≠ none ∧ (s.dr 0).posSince ≤ (s.dr 0).pulseAt + 40000000
      ∧ (s.dr 0).posSince + 990000 ≤ max s.time 40990100
      ∧ ((after (.flyPosChange 40990100 0 openLevel 7) s).dr 0).edge = true
      ∧ goes (.flyPosChange 40990099 0 openLevel 7) s (s.advance 40990099) = true
      ∧ ((after (.flyPosChange 40990101 0 openLevel 7) (posed openLevel 40000101)).dr 0).edge = false)
      ∧ (let s := (posed (!openLevel) 100).modDrift 0 fun k => { k with pos := some (!openLevel) }
         (s.dr 0).posPin ≠ openLevel ∧ (s.dr 0).pos = some (s.dr 0).posPin
          ∧ ((after (.flyPosChange 40990100 0 openLevel 40000100) s).dr 0).edge = true
          ∧ ((after (.flyPosChange 40990099 0 openLevel 40000100) s).dr 0).edge = false
          ∧ ((after (.flyPosChange 40990099 0 openLevel 40000100) s).dr 0).posSince = 40000100)
      ∧ (let s := (posed (!openLevel) 100).modDrift 0 fun k => { k with pos := none }
         ((after (.flyPosChange 990200 0 openLevel 200) s).dr 0).edge = true
          ∧ max 200 (s.dr 0).posSince ≤ (s.dr 0).posSince + 990000)
      ∧ (let s := flying fun k => { k with posPin := !openLevel, posSince := 10 }
         (s.dr 0).cycle = none ∧ (s.dr 0).inFault = false ∧ s.peerCycle 0 = false ∧ (s.dr 0).posPin ≠ openLevel
          ∧ ((after (.flyPosChange 990010 0 openLevel 4) s).dr 0).cause = 5
          ∧ (after (.flyPosChange 990010 0 openLevel 4) s).links.raised = [(.fc, 0, 2, 0, 5)]) := by decide +kernel

theorem witness_FlysheetFaults :
    (let s := flying fun k => { k with step := .close, cycle := some cycle0, pulseAt := 100 }
     (s.dr 0).edge = false ∧ s.clk.pfw = false ∧ s.thm.shutdown = false ∧ ((after (.closeTimeout 40990099 0) s).dr 0).inFault = false
      ∧ ((after (.closeTimeout 40990100 0) s).dr 0).cause = 2 ∧ ((after (.closeTimeout 40990100 0) s).dr 0).drive = .isOpen
      ∧ ((after (.closeTimeout 40990100 0) s).dr 0).pulseEnd = 40990100 + s.pulseOf 0 ∧ s.pulseOf 0 = 20000000)
      ∧ (let s := flying fun k => { k with step := .opening, cycle := some cycle0, pulseAt := 100 }
         (s.dr 0).pulseHeld = none ∧ ((after (.openTimeout 40990100 0) s).dr 0).cause = 3)
      ∧ (let s := flying fun k => { k with openWait := true, pulseAt := 100, pos := some (run.parBit .flyCfg 0 1) }
         s.showsOpen 0 = true ∧ (s.dr 0).step ≠ .opening ∧ ((after (.openTimeout 40990100 0) s).dr 0).openWait = false)
      ∧ (let s := flying fun k => { k with inhibit := some ⟨4, some 100, false⟩ }
         ((after (.inhibitWindowEnd 100 0) s).dr 0).inhibit = none ∧ ((after (.inhibitWindowEnd 99 0) s).dr 0).inhibit ≠ none)
      ∧ (let s := (flying fun k => { k with hasRef := true, lastRefTime := 100 }).setPar .flyTmax 0 10
         s.par .flyTmax 0 ≠ 0 ∧ ((after (.flyTmaxExpiry 10000000100 0) s).dr 0).tmaxDue = true
          ∧ ((after (.flyTmaxExpiry 10000000099 0) s).dr 0).tmaxDue = false)
      ∧ (let s := flying fun k => { k with step := .compute, cycle := some cycle0 }
         cycle0.compute = none ∧ cycle0.map = none ∧ ((after (.flysheetComputeDone 4 0) s).dr 0).cause = 10) := by decide +kernel

/-- A cycle with one good pixel, and the same cycle with screening sums. -/
def cycle1 : Cycle :=
  { cycle0 with
    acc := [(0, [8])], inSet := [(0, [false])], last := [(0, { a := [2], m := 0, drc := [0], gain := [16384], cls := [0] })]
    s1 := [(0, [8])], s2 := [(0, [16])] }

theorem witness_FlysheetCompute :
    cycle1.compute.isSome = true ∧ ({ cycle1 with dscr := true } : Cycle).compute.isSome = true ∧ cellsWf run.mem.cells = true
      ∧ (let s := flying fun k => { k with step := .compute, cycle := some cycle1 }
         ((after (.flysheetComputeDone 4 0) s).dr 0).cycle.bind (·.map) = cycle1.compute.map (·.2))
      ∧ (let s := flying fun k => { k with step := .compute, cycle := some { cycle1 with dscr := true } }
         ((after (.flysheetComputeDone 4 0) s).dr 0).candCnt ≤ 4096) := by decide +kernel

theorem witness_FlysheetCommands :
    let s := joined (flying id)
    let on := s.setPar .tileEn 0 1
    let c := cmd 0x4001 [1, 0, 0, 0]
    let d := cmd 0x4001 [1, 2, 0, 0]
    let e := cmd 0x4001 [1, 1, 0, 0]
    run.drift.length = 8 ∧ starts (host c s) c = true ∧ starts (host d on) d = true ∧ starts (host e on) e = true ∧ tilesIn 1 = [0]
      ∧ s.tileOn 0 = false ∧ on.flyEn 0 = true ∧ on.tileOn 0 = true ∧ (on.dr 0).inhibit = none ∧ (on.dr 0).inFault = false
      ∧ (on.dr 0).cycle = none ∧ on.fdieUp = true ∧ on.peerTiles 1 = 0 ∧ on.isPartner = false
      ∧ ((after (.flyCycle 10 0 5) (host c on)).dr 0).reasons = 0b10000
      ∧ ((after (.flyCycle 10 0 5) (host e on)).dr 0).force = true
      ∧ ((after (.flyCycle 10 0 5) (host c on)).ctx 0).inflight.map (·.wait) = [.fly 1 0 0 0 0]
      ∧ ((flying id).setPar .tileEn 0 1).fdieUp = false
      ∧ (after (.flyCycle 10 0 5) (host c ((flying id).setPar .tileEn 0 1))).dr 0 = ((flying id).setPar .tileEn 0 1).dr 0 := by
  decide +kernel

theorem witness_FlysheetCommands_inhibit :
    (let c := cmd 0x4002 [1, 0, 0, 0, 2, 0, 0xFE, 0xFF]
     starts (host c) c = true ∧ ((after (.flyInhibit 10 0 5) (host c (joined run))).dr 0).inhibit
        = some { start := 2000000010, stop := some 65536000000010, raised := false })
      ∧ (let c := cmd 0x4002 [1, 0, 0, 0, 2, 0, 0xFF, 0xFF]
         ((after (.flyInhibit 10 0 5) (host c (joined run))).dr 0).inhibit = some { start := 2000000010, stop := none, raised := false })
      ∧ (let c := cmd 0x4003 [1] 64
         starts (host c) c = true ∧ (host c).sgInDevice 0 = false
          ∧ (after (.driftStatus 10 0 5 32) (host c)).out = [.scatter 0 5 ((host c).advance 10 |>.driftRecord 0)])
      ∧ starts (host (cmd 0x4003 [])) (cmd 0x4003 []) = true := by decide +kernel

/-! Calibration and failed tags. -/

def hdr512 : Bytes := (List.replicate 168 0) ++ [2] ++ List.replicate 343 0
def sess : Session := newSession 0 hdr512 0
def importing (c : Cmd) : State := host c { run with session := some sess }

theorem witness_CalibrationImportSession :
    (let c := cmd 0x3001 hdr512
     starts (host c) c = true ∧ run.importsHere = true ∧ run.session = none ∧ run.act = .none)
      ∧ (let c := cmd 0x3002 [] 64
         starts (importing c) c = true ∧ sess.owner = 0 ∧ (importing c).sgInDevice 0 = false
          ∧ leAt (List.replicate 24 (1 : Byte)) 0 4 ≠ sess.next ∧ sess.next < hdrChunks sess.hdr ∧ chunkLen sess.hdr sess.next + 16 = 16
          ∧ leAt ([0, 0, 0, 0, 16, 0, 0, 0] ++ List.replicate 16 0) 0 4 = sess.next
          ∧ leAt ([0, 0, 0, 0, 16, 0, 0, 0] ++ List.replicate 16 0) 4 4 = 16)
      ∧ (let c := cmd 0x3003 [1, 0, 0, 0]
         starts (importing c) c = true ∧ (after (.calImportEnd 10 0 5) (importing c)).session = none)
      ∧ (let c := cmd 0x3003 [0, 0, 0, 0]
         starts (importing c) c = true
          ∧ ((after (.calImportEnd 10 0 5) (importing c)).session.map (·.touched)) = some 10)
      ∧ (importing (cmd 0 [])).act = .none
      ∧ (after (.calImportTmoExpiry ((importing (cmd 0 [])).par .calImportTmo * 1000000000)) (importing (cmd 0 []))).session = none
      ∧ (after (.calImportTmoExpiry ((importing (cmd 0 [])).par .calImportTmo * 1000000000 - 1)) (importing (cmd 0 []))).session
          = some sess
      ∧ (let c := cmd 0x3004 [] 64
         let s := host c { run with links := { run.links with gln := .up } }
         starts s c = true ∧ s.nvMap 8 = none ∧ s.nvUp = true ∧ (s.ctx 0).busOff = false ∧ c.sgAddr ≠ 0 ∧ s.sgInDevice 0 = false
          ∧ (after (.calStatus 10 0 5 64) s).out.length = 1) := by decide +kernel

def acting (k : Activation) : State := { reading3 with act := k, session := some sess }

theorem witness_ActivationAndFailedTags :
    (let s := { acting (.waiting 100) with tick := { run.tick with running := true, state := .internal, next := 5 } }
     max s.time 5 < 100 + 100000000 ∧ s.tick.next ≤ max s.time 5 ∧ (s.tick.d2 && s.tick.skip) = false
      ∧ (after (.activationStart 5) s).act = .holding 5 false 0)
      ∧ (after (.activationStart 100000100) (acting (.waiting 100))).act = .copying
      ∧ (after (.activationCopyDone 5 true) (acting (.holding 4 false 2))).act = .holding 4 true 2
      ∧ (acting .copying).session = some sess
      ∧ (let s := { acting (.holding 4 true 2) with tick := { run.tick with running := true, state := .freeRun, next := 5 } }
         4 + 4000000 ≤ max s.time 4000004 ∧ s.act = .holding 4 true 2 ∧ s.tick.running = true ∧ s.tick.next ≤ max s.time 4000004
          ∧ (after (.activationHoldEnd 4000004) s).act = .none)
      ∧ run.boot = .running ∧ 64 * mib - 1 < 64 * mib ∧ (after (.memoryTagFail 5 (64 * mib - 512) false) started3).boot = .basecamp
      ∧ 64 * mib < 0x0C000000 ∧ 0x0C000000 - 1 < 0x0C000000
      ∧ (after (.memoryTagFail 5 (64 * mib) false) (run.writeMem (64 * mib) [7])).mem.cells = [] := by decide +kernel

/-- A bundle whose tile 0 has 1,024 columns and 768 rows of CAL at 0x60000000. -/
def bundle0 : Bundle :=
  { hdr := List.replicate 256 0 ++ [0, 4, 0, 3] ++ List.replicate 252 0, area := 0, actFrame := 0, lin := [], nlc := [], tsub := [],
    housing := [], rad := [], secs := [], cpr := [(0, 0, 0x60000000)] }

theorem witness_ActivationAndFailedTags_cal :
    let s := { started3 with bundle := some bundle0 }
    let e : Nat × Nat × Nat := (0, 0, 0x60000000)
    (bundle0.cpr.find? fun e => e.2.2 ≤ 0x60002000 && 0x60002000 < e.2.2 + cprPitch (hdrCols bundle0.hdr e.1) * hdrRows bundle0.hdr e.1 * 8)
        = some e ∧ regsWf s.regs = true
      ∧ (after (.memoryTagFail 5 0x60002000 false) s).par .calTagFailCnt = 1
      ∧ (after (.memoryTagFail 5 0x60002000 false) s).par .calRereadFailCnt = 1
      ∧ (after (.memoryTagFail 5 0x60002000 true) s).par .calRereadFailCnt = 0
      ∧ ((after (.memoryTagFail 5 0x60002000 false) s).frames.map fun f => (f.tile 0).badCpr) = [[(1, 0)]]
      ∧ (let k := run.modDrift 7 fun k => { k with cycle := some cycle0, step := .close }
         (allTiles.filter fun t => (k.dr t).cycle.isSome)[(0x0C000000 - 0x0C000000) / (64 * mib)]? = some 7
          ∧ ((after (.memoryTagFail 5 0x0C000000 true) k).dr 7).cause = 10) := by decide +kernel

/-- Some digest is another than that of an empty import. -/
theorem witness_CalibrationImportSession_digest : ∃ h : Bytes, hdrDigest h ≠ sha [] := by
  by_cases e : sha [] = hdrDigest []
  · exact ⟨List.replicate 512 1, e ▸ by decide⟩
  · exact ⟨[], Ne.symm e⟩

/-! The auxiliary path, replay and capture. -/

def authed (s : State := run) : State := s.modCtx 0 fun k => { k with auth := some ⟨0, [], [], none⟩ }
def aux1 : AuxJob := { cam := 1, slot := 0, seq := 9, subAt := 4 }
def auxes (f : Aux → Aux) (s : State := run) : State := { s with aux := f s.aux }

theorem witness_Auxiliary :
    (let s := authed.setPar .auxCamCfg 3 (authed.par .auxCamCfg 3 ||| 256)
     s.streamControl 0 = true ∧ Param.inRange false .auxSubmit 3 0xFFFF0001 = true ∧ s.parBit .auxCamCfg 3 8 = true ∧ s.thm.stage = 0
      ∧ s.auxSlotState 3 1 = 0 ∧ (after (.auxSubmitWrite 10 0 3 0xFFFF0001) s).aux.queue = [⟨3, 1, 0xFFFF, 10⟩]
      ∧ (let u := after (.auxSubmitWrite 10 0 3 0xFFFF0001) s
         u.auxSlotState 3 1 ≠ 0 ∧ (after (.auxSubmitWrite 11 0 3 0xFFFF0001) u).wstatus = .busy))
      ∧ (auxes fun a => { a with queue := [aux1] }).aux.job = none ∧ (auxes fun a => { a with queue := [aux1] }).aux.capture = none
      ∧ ({ run with thm := { run.thm with stage := 1 } } : State).thm.stage ≠ 0
      ∧ ({ run with thm := { run.thm with shutdown := true } } : State).thm.shutdown = true
      ∧ (let s := auxes fun a => { a with job := some (aux1, 2, [], []) }
         s.aux.job = some (aux1, 2, [], []) ∧ aux1.cam < s.aux.cams.length ∧ (auxInput [] [] []).output = []) := by decide +kernel

/-- The area holds a source frame's header, and one frame is to be replayed. -/
def replaying : State := (authed.writeMem replayAddr [0x4B, 0x52, 0x46, 0x31, 0]).setPar .replayCfg 0 4

theorem witness_ReplayAndCapture :
    replaying.streamControl 0 = true ∧ replaying.aux.op = 0 ∧ replaying.headerOk 0 = true ∧ replaying.anyStream = false
      ∧ replaying.replayCount = 1 ∧ replaying.replayCount * replaying.sourceBytes ≤ replaying.replaySize
      ∧ replaying.replayCount * replaying.resultBytes ≤ replaying.replaySize
      ∧ (after (.captureStart 10 0) replaying).aux.op = 2 ∧ (after (.replayStart 10 0) replaying).aux.op = 1
      ∧ (let s := replaying.setPar .replayDst 0 (replaying.replaySize / 256 + 1)
         s.replaySize < 256 * s.par .replayDst + s.replayCount * s.sourceBytes
          ∧ (after (.captureStart 10 0) s).wstatus = .badParam)
      ∧ (let s := (started3.modCtx 0 fun k => { k with auth := some ⟨0, [], [], none⟩ }).setPar .tickPeriod 0 1
         s.anyStream = true ∧ s.pBudget < replayBudget)
      ∧ (let s := auxes (fun a => { a with op := 2 }) replaying
         (after (.replayStart 10 0) s).wstatus = .busy ∧ s.aux.busySince = none ∧ (after (.replayStop 10 0) s).aux.cause = 1)
      ∧ (let s := auxes (fun a => { a with op := 1, busySince := some 4 }) replaying
         s.aux.busySince ≠ none ∧ (after (.replayStop 10 0) s).aux.stopReq = true ∧ cellsWf s.mem.cells = true
          ∧ (after (.replayFrameDone (3 + s.replayTime)) s).aux = s.aux
          ∧ 4 + s.replayTime ≤ max s.time (4 + s.replayTime)) := by decide +kernel

theorem witness_ReplayFrames :
    (let s := auxes (fun a => { a with op := 1 }) run
     s.aux.busySince = none ∧ s.headerOk s.aux.src = false ∧ (after (.replayFrameStart 10) s).aux.cause = 2)
      ∧ (let s := auxes (fun a => { a with op := 1 }) replaying
         s.headerOk s.aux.src = true ∧ (after (.replayFrameStart 10) s).aux.busySince = some 10)
      ∧ (let s := auxes (fun a => { a with op := 1 }) (started3.writeMem replayAddr [0x4B, 0x52, 0x46, 0x31, 0])
         s.headerOk s.aux.src = true ∧ s.anyStream = true ∧ s.reading ≠ none
          ∧ (after (.replayFrameStart 10) s).aux.busySince = none)
      ∧ (let s := { (auxes (fun a => { a with op := 1 }) (replaying.setPar .tickPeriod 0 4000000)) with tick :=
        { run.tick with last := some 4 } }
         let t := s.cutOf 4 - s.replayTime
         s.headerOk s.aux.src = true ∧ s.reading = none ∧ replayBudget ≤ s.pBudget ∧ s.tick.last = some 4
          ∧ max s.time t + s.replayTime ≤ s.cutOf 4 ∧ (after (.replayFrameStart t) s).aux.busySince = some t)
      ∧ (let s := auxes (fun a => { a with op := 1 }) { replaying with thm := { run.thm with shutdown := true } }
         s.thm.shutdown = true ∧ (after (.replayFrameStart 10) s).aux.busySince = none) := by decide +kernel

/-! The host protocol. -/

/-- CTX0 with rings of 64, 64 and 16 entries. -/
def ringed (s : State := run) : State :=
  s.modCtx 0 fun k =>
    { k with ringsOn := true, sq := { k.sq with size := 64 }, cq := { k.cq with size := 64 }, eq := { k.eq with size := 16 } }
def tagged : State := ringed.setPar .hostTagCount 0 6
def hd (tag : Nat) : Header :=
  { opcode := 1, tag, ctx := 0, flags := 0, inlineLen := 0, hseq := 0, timeout := 0, sgAddr := 0, sgEntries := 0, reserved := 0 }

theorem witness_EarlyRefusalsTakeNoTag :
    tagged.onPcie 0 = true ∧ (tagged.ctx 0).ringsOn = true ∧ tagged.forwards 0 1 = false ∧ tagged.parField .sampleCfg 0 1 0 ≠ 2
      ∧ ({ hd 5 with ctx := 1 } : Header).legal 0 = false ∧ (hd 6).legal 0 = true ∧ tagged.ownsTag 0 6 = false
      ∧ tagged.ownsTag 0 5 = true ∧ (hd (5 + 2048)).tag / 2048 ≠ tagged.genOf 5 ∧ (hd 5).tag / 2048 = tagged.genOf 5
      ∧ (∃ c ∈ ((host (cmd 1 []) tagged).ctx 0).inflight, c.tag % 2048 = (hd 5).tag % 2048)
      ∧ ((tagged.fetchCommand 0 (hd 6) []).ctx 0).replies.map (·.status) = [.notPermitted] := by decide +kernel

theorem witness_FinishRepliesAndFreesTheTag :
    (let s := host (cmd 1 []) tagged
     s.onPcie 0 = true ∧ (s.ctx 0).ringsOn = true ∧ keysRise none s.gens = true ∧ (s.finish 0 (cmd 1 []) .done 7).genOf 5 = 1
      ∧ ((s.finish 0 (cmd 1 []) .done 7).ctx 0).inflight = []
      ∧ (let u := { s with gens := [(5, 31)] }
         u.genOf 5 = 31 ∧ keysRise none u.gens = true ∧ (u.finish 0 (cmd 1 []) .done 7).genOf 5 = 0)) := by decide +kernel

theorem witness_DoorbellsMoveTheRings :
    ringed.barUp 0 = true ∧ (ringed.ctx 0).ringErr = 0 ∧ (ringed.ctx 0).fetchStop = false ∧ (ringed.ctx 0).sq.size ≤ 64
      ∧ 63 < (ringed.ctx 0).sq.size
      ∧ (ringed.ctx 0).cq.size ≤ 64 ∧ 63 < (ringed.ctx 0).cq.size ∧ (ringed.ctx 0).eq.size ≤ 16 ∧ 15 < (ringed.ctx 0).eq.size
      ∧ ((after (.eqHeadDoorbell 4 0 16) ringed).ctx 0).ringErr = 2 ∧ ((after (.eqHeadDoorbell 4 0 15) ringed).ctx 0).eq.head = 15 := by
  decide +kernel

theorem witness_RingControl :
    (let s := ringed.modCtx 0 fun k =>
      { k with ringsOn := false, sq := { k.sq with base := 4096 }, cq := { k.cq with base := 4096 }, eq := { k.eq with base := 4096 } }
     s.barUp 0 = true ∧ (0 : Ctx).val < s.ctxs.length ∧ (s.ctx 0).ringsOn = false ∧ (s.ctx 0).ringsOk = true
      ∧ ((after (.ringEnable 4 0) s).ctx 0).ringsOn = true ∧ (s.ctx 0).heldReset = none)
      ∧ (run.ctx 0).ringsOk = false ∧ run.barUp 0 = true ∧ ((after (.ringEnable 4 0) run).ctx 0).ringErr = 1
      ∧ (ringed.ctx 0).inflight = [] ∧ ((after (.ringDisable 4 0) ringed).ctx 0).ringsOn = false
      ∧ ((host (cmd 1 [])).ctx 0).inflight ≠ [] ∧ (ringed.ctx 0).ringsOn = true
      ∧ ((after (.ringDmaError 4 0) ringed).ctx 0).ringErr = 3 := by decide +kernel

theorem witness_BarRegistersAndDataPort :
    run.barUp 0 = true ∧ (ringed.ctx 0).ringsOn = true ∧ (run.ctx 0).ringsOn = false
      ∧ ((after (.barRegisterWrite 4 0 .sqBase 4096) run).ctx 0).sq.base = 4096
      ∧ ((after (.barRegisterWrite 4 0 .sqBase 4096) ringed).ctx 0).sq.base = 0
      ∧ ((after (.barRegisterWrite 4 0 .irqStatus 2) (run.modCtx 0 fun k => { k with irqStatus := 7 })).ctx 0).irqStatus = 5
      ∧ (run.ctx 0).irqHold &&& BitVec.ofNat 2 (2 ^ 1) = 0
      ∧ (let s := run.modCtx 0 fun k => { k with irqHold := 3, irqBack := 2 }
         (s.ctx 0).irqHold &&& BitVec.ofNat 2 (2 ^ 0) ≠ 0 ∧ (s.ctx 0).irqBack &&& BitVec.ofNat 2 (2 ^ 0) = 0
          ∧ (s.ctx 0).irqBack &&& BitVec.ofNat 2 (2 ^ 1) ≠ 0 ∧ ((after (.irqHoldoffExpiry 4 0 1) s).ctx 0).irqBack = 0
          ∧ ((after (.irqHoldoffExpiry 4 0 1) s).ctx 0).irqStatus = 2 ∧ ((after (.irqHoldoffExpiry 4 0 0) s).ctx 0).irqHold = 2)
      ∧ (let s := (authed run).modCtx 0 fun k => { k with dpAddr := replayAddr }
         s.dpWriteStop 0 replayAddr 4 = none ∧ s.dpReadStop 0 replayAddr 4 = none
          ∧ (after (.dpDataAccess 10 0 (.write 9)) s).readMem replayAddr 4 = [9, 0, 0, 0]
          ∧ ((after (.dpDataAccess 10 0 (.write 9)) s).ctx 0).dpAddr = replayAddr + 4
          ∧ ((after (.dpBurstAccess 10 0 4092 (.write 9)) s).readMem (replayAddr + 4092) 4) = [9, 0, 0, 0])
      ∧ run.dpWriteStop 0 0 4 = some .notPermitted ∧ run.dpReadStop 0 0 4 = some .notPermitted
      ∧ (after (.dpDataAccess 10 0 .read) run).out = [.busRead 0 0xFFFFFFFF] := by decide +kernel

/-- CTX1 is bound to peg port 0 as OWNER, and the guyline is up. -/
def pegged : State :=
  ({ run with links := { run.links with gln := .up } } : State).setPar .hostCtxBind 1 (9 + 16)
    |>.modCtx 1 fun k => { k with auth := some ⟨0, [], [], none⟩ }

theorem witness_PegFramesReachTheirContext :
    pegged.pegContext 0 = some 1 ∧ pegged.fdieUp = true ∧ pegged.hostUp = true ∧ (0xC0 :: List.replicate 32 (0 : Byte)).head? = some 0xC0
      ∧ (0xC0 :: List.replicate 32 (0 : Byte)).length = 33 + (parseHeader (List.replicate 32 0)).inlineLen
      ∧ [(0xC0 : Byte)].length ≠ 33 + (parseHeader []).inlineLen ∧ pegCountOk 4096 = true ∧ pegCountOk 4 = true
      ∧ pegged.dpWriteStop 1 replayAddr 4 = none ∧ pegged.dpReadStop 1 replayAddr 4096 = none ∧ (0 : Fin 2).val < pegged.pegs.length
      ∧ (after (.pegDataWriteFrame 4 0 replayAddr [1, 2, 3, 4]) pegged).readMem replayAddr 4 = [1, 2, 3, 4]
      ∧ (after (.pegDataReadFrame 4 0 replayAddr 4) pegged).pegs.map (·.txFrames) = [[[0xD2, 0, 0, 0, 0]], []]
      ∧ pegged.dpReadStop 1 0 4 = some .notPermitted
      ∧ (after (.pegDataReadFrame 4 0 0 4) pegged).pegs.map (·.txFrames) = [[[0xD2, 255, 255, 255, 255]], []] := by decide +kernel

def dataPay (p n : Nat) : Bytes := leBytes 8 p ++ leBytes 4 n

theorem witness_DataCommandsCopyTheirRange :
    (let c := cmd 0x5001 (dataPay replayAddr 4) 64
     let s := host c
     starts s c = true ∧ c.payload.length = 12 ∧ dataRangeOk replayAddr 4 = true ∧ s.sgInDevice 0 = false
      ∧ s.readRefusal 0 replayAddr 4 = none
      ∧ (after (.dataRead 10 0 5 4) (s.writeMem replayAddr [1, 2])).out.head? = some (.scatter 0 5 [1, 2, 0, 0]))
      ∧ (let c := cmd 0x5002 (dataPay replayAddr 4 ++ [1, 2, 3, 4])
         let s := host c
         starts s c = true ∧ c.payload.length = 12 + 4 ∧ s.writeRefusal 0 replayAddr 4 = none ∧ cellsWf s.mem.cells = true
          ∧ (after (.dataWrite 10 0 5 []) s).readMem replayAddr 4 = [1, 2, 3, 4])
      ∧ (let c := cmd 0x5002 (dataPay replayAddr 4) 64
         let s := host c
         starts s c = true ∧ s.sgInDevice 0 = false ∧ (after (.dataWrite 10 0 5 [1, 2, 3, 4]) s).readMem replayAddr 4 = [1, 2, 3, 4])
      ∧ (let c := cmd 0x5002 (dataPay 0 4 ++ [1, 2, 3, 4])
         let s := host c
         starts s c = true ∧ s.writeRefusal 0 0 4 = some .notPermitted
          ∧ (after (.dataWrite 10 0 5 []) s).mem = s.mem) := by decide +kernel

theorem witness_DataCommandsCopyTheirRange_later :
    (let c := cmd 0x5001 (dataPay replayAddr 4098) 64 (.moving 4096)
     let s := host c
     (s.advance 10).midTransfer 0 5 0x5001 = some (c, 4096) ∧ s.sgInDevice 0 = false ∧ (s.ctx 0).busOff = false
      ∧ (after (.dataRead 10 0 5 4098) (s.writeMem (replayAddr + 4096) [1, 2])).out.head? = some (.scatter 0 5 [1, 2]))
      ∧ (let c := cmd 0x5002 (dataPay replayAddr 4098) 64 (.moving 4096)
         let s := host c
         (s.advance 10).midTransfer 0 5 0x5002 = some (c, 4096) ∧ s.sgInDevice 0 = false ∧ cellsWf s.mem.cells = true)
      ∧ (let c := cmd 0x5001 (dataPay 0 4) 64
         let s := host c
         starts s c = true ∧ s.sgLength 0 c 4 = 4 ∧ s.readRefusal 0 0 4 = some .notPermitted) := by decide +kernel

def replyOfRun (s : State) : List (Status × Nat) := (s.ctx 0).replies.map fun r => (r.status, r.result)

theorem witness_InfoCommands :
    (let c := cmd 0x0001 []
     starts (host c) c = true ∧ replyOfRun (after (.nop 10 0 5) (host c)) = [(.done, 0)])
      ∧ (let c := cmd 0x0001 [1]
         starts (host c) c = true ∧ replyOfRun (after (.nop 10 0 5) (host c)) = [(.badParam, 0)])
      ∧ (let c := cmd 0x0002 []
         starts (host c) c = true ∧ c.sgEntries = 0 ∧ ((host c).ctx 0).ringsOn = true)
      ∧ (let c := cmd 0x0002 [] 64
         starts (host c) c = true ∧ c.sgEntries ≠ 0 ∧ (host c).sgInDevice 0 = false)
      ∧ (let c := cmd 0x0003 [] 64
         starts (host c) c = true ∧ run.links.gln = .down
          ∧ starts (host c { run with links := { run.links with gln := .up } }) c = true
          ∧ replyOfRun (after (.getRecovery 10 0 5 128) (host c)) = [(.failedFault, 0)])
      ∧ (let c := cmd 0x0030 [0xFF, 0x3F, 0, 0]
         starts (host c) c = true ∧ leAt c.payload 0 4 = 2 ^ 14 - 1 ∧ run.sec.rollback = none ∧ run.sec.trialDue = false
          ∧ ((after (.eventArm 10 0 5) (host c)).ctx 0).evtMask = 0x3FFF) := by decide +kernel

/-- A second command of CTX0, with tag 4. -/
def beside (d c : Cmd) (s : State := run) : State :=
  (s.modCtx 0 fun k => { k with ringsOn := true, inflight := [{ d with tag := 4 }, { c with order := 1 }] }).setPar .hostTagCount 0 6

theorem witness_AbortTimeoutAndReset :
    (let c := cmd 0x0020 [4, 0]
     let s := (host c).setPar .hostTagCount 0 6
     starts s c = true ∧ s.ownsTag 0 4 = true ∧ leAt c.payload 0 2 / 2048 = s.genOf 4
      ∧ ((s.ctx 0).inflight.find? fun d => d.tag % 2048 == 4) = none ∧ replyOfRun (after (.abort 10 0 5) s) = [(.done, 1)])
      ∧ (let c := cmd 0x0020 [4, 0]
         let d := { cmd 0x5001 [] with tag := 4, order := 1, fence := true }
         let s := (host c).modCtx 0 (fun k => { k with inflight := [{ cmd 0xA001 [] 0 .snapshot with tag := 3 }, d,
           { c with order := 2 }] })
           |>.setPar .hostTagCount 0 6
         (s.advance 10).starting 0 5 0x0020 = some { c with order := 2 }
          ∧ ((s.ctx 0).inflight.find? fun d => d.tag % 2048 == 4) = some d ∧ d.wait = .notStarted
          ∧ replyOfRun (after (.abort 10 0 5) s) = [(.aborted, 0), (.done, 0)])
      ∧ (let c := cmd 0x0020 [4, 0]
         let d := { cmd 0xA001 [] 0 .snapshot with tag := 4 }
         let s := beside d c
         (s.advance 10).starting 0 5 0x0020 = some { c with order := 1 }
          ∧ ((s.ctx 0).inflight.find? fun d => d.tag % 2048 == 4) = some d
          ∧ (((after (.abort 10 0 5) s).ctx 0).inflight.map (·.wait)) = [.snapshot, .aborting 4])
      ∧ (let d := { cmd 0x5001 [] with deadline := some 100 }
         let s := host d
         ((s.ctx 0).inflight.find? fun d => d.tag % 2048 == 5) = some d
          ∧ replyOfRun (after (.commandTimeout 100 0 5) s) = [(.timeout, 0)] ∧ replyOfRun (after (.commandTimeout 99 0 5) s) = [])
      ∧ (let d := { cmd 0xA001 [] 0 .snapshot with deadline := some 100 }
         ((host d).ctx 0).inflight = [d] ∧ replyOfRun (after (.commandTimeout 100 0 5) (host d)) = [])
      ∧ (let c := cmd 0x0010 [255]
         starts (host c) c = true
          ∧ ((after (.resetContext 10 0 5) ((host c).modCtx 0 fun k => { k with evtMask := 7 })).ctx 0).evtMask = 0) := by
  decide +kernel

def tp : Nat := Param.tickPeriod.id 0

theorem witness_ParameterCommands :
    paramOf tp = some (.tickPeriod, 0) ∧ Param.tickPeriod.row.access = .rws
      ∧ (let c := cmd 0x1001 (leBytes 2 1 ++ leBytes 2 (Param.statEn.id 0))
         let s := (host c).setPar .statEn 0 5
         paramOf (Param.statEn.id 0) = some (.statEn, 0) ∧ Param.statEn.row.access = .rws ∧ onFDie .statEn 0 = false
          ∧ starts s c = true ∧ c.sgEntries = 0 ∧ replyOfRun (after (.paramRead 10 0 5 0) s) = [(.done, 5)])
      ∧ (let c := cmd 0x1001 (leBytes 2 0 ++ leBytes 2 tp)
         let s := (host c).modCtx 0 fun k => { k with staged := [(tp, 300000)] }
         starts s c = true ∧ keyGet (s.ctx 0).staged tp = some 300000
          ∧ replyOfRun (after (.paramRead 10 0 5 0) s) = [(.done, 300000)])
      ∧ (let c := cmd 0x1002 (leBytes 2 tp ++ [0, 0] ++ leBytes 4 208333)
         let s := host c
         starts s c = true ∧ 208333 < 2 ^ Param.tickPeriod.row.width ∧ s.mayWrite 0 tp = true ∧ s.partnerBars tp .tickPeriod = false
          ∧ Param.inRange (s.sec.otp.grade == 2) .tickPeriod 0 208333 = true ∧ Param.tickPeriod ≠ .pegXfer
          ∧ keyGet ((after (.paramWrite 10 0 5) s).ctx 0).staged tp = some 208333)
      ∧ (let id := Param.biasSlew.id 7
         let c := cmd 0x1002 (leBytes 2 id ++ [0, 0] ++ leBytes 4 10)
         let s := host c
         starts s c = true ∧ 10 < 2 ^ Param.biasSlew.row.width ∧ paramOf id = some (.biasSlew, 7) ∧ Param.biasSlew.row.access = .rw
          ∧ onFDie .biasSlew 7 = true ∧ s.fdieUp = false ∧ s.mayWrite 0 id = true ∧ s.partnerBars id .biasSlew = false
          ∧ Param.inRange (s.sec.otp.grade == 2) .biasSlew 7 10 = true ∧ replyOfRun (after (.paramWrite 10 0 5) s) = [(.failedFault, 0)])
      ∧ (let c := cmd 0x1003 [1, 0, 0, 0]
         starts (host c) c = true ∧ replyOfRun (after (.paramCommit 10 0 5) (host c)) = [(.done, 0)])
      ∧ (let c := cmd 0x1003 [0, 0, 0, 0]
         starts (host c) c = true ∧ ((host c).ctx 0).staged = []
          ∧ replyOfRun (after (.paramCommit 10 0 5) (host c)) = [(.done, 0xFFFFFFFF)]
          ∧ (let s := (host c).modCtx 0 fun k => { k with staged := [(tp, 300000)] }
             (s.ctx 0).staged ≠ [] ∧ starts s c = true
              ∧ ((after (.paramCommit 10 0 5) s).ctx 0).inflight.map (·.wait) = [.commitDue])) := by decide +kernel

def hkr : Nat := Param.hkRound.id 0

theorem witness_ParameterCommands_fdie :
    let c := cmd 0x1001 (leBytes 2 1 ++ leBytes 2 hkr)
    paramOf hkr = some (.hkRound, 0) ∧ Param.hkRound.row.access = .rws ∧ onFDie .hkRound 0 = true ∧ onFDie .tickPeriod 0 = true
      ∧ starts (host c (joined run)) c = true ∧ (joined run).fdieUp = true
      ∧ replyOfRun (after (.paramRead 10 0 5 0) (host c (joined run))) = [(.done, run.par .hkRound)]
      ∧ starts (host c) c = true ∧ replyOfRun (after (.paramRead 10 0 5 0) (host c)) = [(.failedFault, 0)] := by decide +kernel

def linked : State := { run with links := { run.links with gln := .up } }
def due : Cmd := cmd 0x1003 [0, 0, 0, 0] 0 .commitDue
def committing (staged : List (Nat × Word)) (s : State := linked) : State := (host due s).modCtx 0 fun k => { k with staged }

theorem witness_CommitsApplyWholeOrNotAtAll :
    ((ticking .internal).advance 5).tickInstant = true ∧ ((ticking .internal).advance 4).tickInstant = false ∧ run.anyStream = false
      ∧ due.wait = .commitDue ∧ (committing [(tp, 300000)]).peerMask due [(tp, 300000)] = some 0
      ∧ ((committing [(tp, 300000)]).coherence [(tp, 300000)]).mask = 0 ∧ (committing [(tp, 300000)]).stagesPersistent 0 = false
      ∧ (committing [(tp, 300000)]).reaches [(tp, 300000)] = true
      ∧ ((committing [(tp, 300000)]).commitStep 0 due 5 false).par .tickPeriod = 300000
      ∧ (let bad := [(Param.actCols.id 0, (64 : Word)), (Param.tileEn.id 0, 1), (Param.tileEn.id 1, 1)]
         ((committing bad).coherence bad).mask ≠ 0 ∧ ((committing bad).commitStep 0 due 5 false).par .tileEn 0 = 0)
      ∧ (let far := [(Param.hkRound.id 0, (77 : Word))]
         (committing far run).reaches far = false ∧ ((committing far run).commitStep 0 due 5 false).par .hkRound ≠ 77
          ∧ ((committing far).commitStep 0 due 5 false).par .hkRound = 77)
      ∧ (let s := committing [(tp, 300000)] { linked with pair := { linked.pair with mode := .paired, role := 0 } }
         sharedOf [(tp, 300000)] = [(tp, 300000)] ∧ s.peerMask due [(tp, 300000)] = none
          ∧ (s.commitStep 0 due 5 false).pair.sync.map (·.2.2) = [[(tp, 300000)]]) := by decide +kernel

theorem witness_CommitsApplyWholeOrNotAtAll_persistent :
    let set := [(Param.secFwConfirmTime.id 0, (99 : Word))]
    let s := committing set
    s.stagesPersistent 0 = true ∧ s.peerMask due set = some 0 ∧ (s.coherence set).mask = 0 ∧ s.reaches set = true
      ∧ s.nvUp = true ∧ 64 ≤ s.nv.spares.length ∧ (s.commitStep 0 due 5 true).nv.running.isSome = true
      ∧ ((committing set run).nvUp = false ∧ (committing set run).reaches set = true
        ∧ replyOfRun ((committing set run).commitStep 0 due 5 true) = [(.failedFault, 0)])
      ∧ (let u : State := { s with nv := { s.nv with spares := [] } }
         u.nvUp = true ∧ u.nv.spares.length < 64 ∧ replyOfRun (u.commitStep 0 due 5 true) = [(.nvFull, 0)])
      ∧ (let bad := [(Param.actCols.id 0, (64 : Word)), (Param.tileEn.id 0, 1), (Param.tileEn.id 1, 1)]
         (committing bad).peerMask due bad = some 0 ∧ (committing bad).reaches bad = true
          ∧ replyOfRun ((committing bad).commitStep 0 due 5 true) = [(.incoherent, ((committing bad).coherence bad).mask)])
      ∧ replyOfRun ((committing []).commitStep 0 due 5 true) = [(.done, 0xFFFFFFFF)] := by decide +kernel

/-- CTX0 with an overflow slot. -/
def bound (c : Cmd) (s : State := run) : State := (host c s).modCtx 0 fun k => { k with overflow := some ⟨4096, 256⟩ }

theorem witness_StreamCommands :
    (let c := cmd 0x2001 [1, 0, 0, 0]
     starts (bound c) c = true ∧ (bound c).dbg.level ≠ 2 ∧ ((bound c).ctx 0).overflow ≠ none ∧ (bound c).links.gln = .down
      ∧ replyOfRun (after (.streamStart 10 0 5) (bound c)) = [(.busy, 0)] ∧ starts (bound c linked) c = true
      ∧ (bound c linked).thm.shutdown = false ∧ (bound c linked).links.gln ≠ .down ∧ (bound c linked).coasting = false
      ∧ (bound c linked).pair.mode ≠ .detached ∧ (bound c linked).stopPending 0 c 1 = false
      ∧ ((bound c linked).ctx 0).mv.started = false
      ∧ ((after (.streamStart 10 0 5) (bound c linked)).ctx 0).mv.starting = true
      ∧ (let hot := { linked with thm := { linked.thm with shutdown := true } }
         hot.thm.shutdown = true ∧ starts (bound c hot) c = true)
      ∧ (let slow := { linked with clk := { linked.clk with pllA := .coasting 0 } }
         slow.coasting = true ∧ starts (bound c slow) c = true))
      ∧ (let c := cmd 0x2002 [1, 0, 0, 0]
         starts (host c) c = true ∧ ((host c).ctx 0).mv.started = false ∧ ((host c).ctx 0).mv.starting = false
          ∧ ((host c).ctx 0).mv.draining = false ∧ replyOfRun (after (.streamStop 10 0 5) (host c)) = [(.doneMarked, 0xFFFFFFFF)]
          ∧ (let s := (host c).modCtx 0 fun k => { k with mv := { k.mv with started := true } }
             starts s c = true ∧ ((after (.streamStop 10 0 5) s).ctx 0).mv.stopping = true))
      ∧ (let c := cmd 0x2002 [1, 0, 0, 0] 0 (.stopping 1 false)
         let s := (host c).modCtx 0 fun k => { k with mv := { k.mv with draining := true, lastFrame := 9 } }
         ((s.ctx 0).inflight.find? fun c => c.tag % 2048 == 5) = some c ∧ s.streamOwes 0 0 = false
          ∧ replyOfRun (after (.streamStopComplete 10 0 5) s) = [(.done, 9)]) := by decide +kernel

/-- Port 0 sends CTX0's images. -/
def ported (s : State) : State := s.setPar .outPortCfg 0 2

theorem witness_StreamCommands_more :
    (let c := cmd 0x2001 [3, 0, 0, 0]
     let s := ported (bound c linked)
     starts s c = true ∧ s.portOwner 0 = 0 ∧ s.portFormat 0 ≠ 0 ∧ s.outs.length = 2
      ∧ (let u := s.modStream 0 1 fun e => { e with started := true }
         starts u c = true ∧ ((after (.streamStart 10 0 5) u).stream 0 0).starting = true
          ∧ ((after (.streamStart 10 0 5) u).stream 0 1).starting = true)
      ∧ (let u : State := { s with dbg := { s.dbg with level := 2 } }
         starts u c = true ∧ replyOfRun (after (.streamStart 10 0 5) u) = [(.notPermitted, 0)]))
      ∧ (let c := cmd 0x2001 [1, 0, 0, 0]
         let d := cmd 0x2002 [1, 0, 0, 0] 0 (.stopping 1 false)
         let s := (beside d c linked).modCtx 0 fun k => { k with overflow := some ⟨4096, 256⟩ }
         (s.advance 10).starting 0 5 0x2001 = some { c with order := 1 } ∧ s.dbg.level ≠ 2 ∧ s.stopPending 0 { c with order := 1 } 1 = true
          ∧ replyOfRun (after (.streamStart 10 0 5) s) = [(.busy, 0)])
      ∧ (let c := cmd 0x2002 [1, 0, 0, 0]
         let s := beside (cmd 0x2002 [1, 0, 0, 0] 0 (.stopping 1 false)) c
         (s.advance 10).starting 0 5 0x2002 = some { c with order := 1 } ∧ s.stopWaits 0 0 = true ∧ (s.ctx 0).mv.starting = false
          ∧ ((after (.streamStop 10 0 5) s).ctx 0).inflight.map (·.wait) = [.stopping 1 false, .stopping 1 false]
          ∧ (let u := (host c).modCtx 0 fun k => { k with mv := { k.mv with starting := true } }
             starts u c = true ∧ ((after (.streamStop 10 0 5) u).ctx 0).mv.starting = false)
          ∧ (let u := (host c).modCtx 0 fun k => { k with mv := { k.mv with starting := true, started := true } }
             starts u c = true ∧ ((after (.streamStop 10 0 5) u).ctx 0).mv.starting = false
              ∧ ((after (.streamStop 10 0 5) u).ctx 0).mv.stopping = true)
          ∧ (let u := s.modCtx 0 fun k => { k with mv := { k.mv with starting := true } }
             (u.ctx 0).mv.started = false ∧ u.stopWaits 0 0 = true ∧ ((after (.streamStop 10 0 5) u).ctx 0).mv.starting = false
              ∧ ((after (.streamStop 10 0 5) u).ctx 0).mv.stopping = false)) := by decide +kernel

def bindPay (n : Byte) : Bytes := n :: List.replicate 15 0 ++ List.replicate 304 0 ++ leBytes 8 4096 ++ leBytes 4 256 ++ leBytes 4 0

theorem witness_BufferCommands :
    (let c := cmd 0x2010 (bindPay 255)
     starts (host c) c = true ∧ bindOk c.payload = true
      ∧ ((after (.bufferBind 10 0 5) (host c)).ctx 0).overflow = some ⟨4096, 256⟩)
      ∧ (let c := cmd 0x2010 (bindPay 15)
         starts (host c) c = true ∧ bindOk c.payload = true ∧ (((host c).ctx 0).sets.getD 15 .reset).state = .free
          ∧ replyOfRun (after (.bufferBind 10 0 5) (host c)) = [(.done, 15)]
          ∧ (let s := (host c).modCtx 0 fun k => { k with sets := k.sets.set 15 { state := .held, entries := [] } }
             starts s c = true ∧ replyOfRun (after (.bufferBind 10 0 5) s) = [(.busy, 0)]))
      ∧ (let c := cmd 0x2011 [0, 128, 0, 0]
         let f (k : SetState) := (host c).modCtx 0 fun j => { j with sets := j.sets.set 15 { state := k, entries := [⟨64, 9⟩] } }
         starts (f .filling) c = true ∧ leAt c.payload 0 4 = 2 ^ 15 ∧ 15 < ((f .held).ctx 0).sets.length
          ∧ replyOfRun (after (.bufferRelease 10 0 5) (f .filling)) = [(.busy, 0)]
          ∧ (((after (.bufferRelease 10 0 5) (f .held)).ctx 0).sets.getD 15 .reset) = { state := .free, entries := [⟨64, 9⟩] }) := by
  decide +kernel

/-- Set 0 is held and bound, set 15 is only bound, and there is an overflow slot; the release names a mask. -/
def releasing (mask : Nat) (stream : Bool) : State :=
  (bound (cmd 0x2011 (leBytes 4 mask))).modCtx 0 fun k => { k with
    mv := { k.mv with started := stream }
    sets := (k.sets.set 0 { state := .held, entries := [⟨64, 9⟩] }).set 15 { state := .free, entries := [⟨64, 9⟩] } }

theorem witness_BufferCommands_release :
    (let done (s : State) := replyOfRun (after (.bufferRelease 10 0 5) s)
     done (releasing 0x8001 true) = [(.done, 1)] ∧ done (releasing 0x38003 false) = [(.done, 0x18001)]
      ∧ done (releasing 0x38001 true) = [(.busy, 0)] ∧ done (releasing 0x40000 false) = [(.badParam, 0)]
      ∧ done (releasing 0x18001 true) = [(.done, 1)])
      ∧ starts (releasing 0x38003 false) (cmd 0x2011 (leBytes 4 0x38003)) = true ∧ (releasing 0 true).hasStream 0 = true
      ∧ (releasing 0 false).hasStream 0 = false ∧ ((releasing 0 false).ctx 0).sets.length = 16
      ∧ (let k := (after (.bufferRelease 10 0 5) (releasing 0x38003 false)).ctx 0
         k.overflow = none ∧ k.sets = List.replicate 16 .reset)
      ∧ (let k := (after (.bufferRelease 10 0 5) (releasing 0x8001 true)).ctx 0
         k.overflow = some ⟨4096, 256⟩ ∧ (k.sets.getD 0 .reset) = { state := .free, entries := [⟨64, 9⟩] }
          ∧ (k.sets.getD 15 .reset) = { state := .free, entries := [⟨64, 9⟩] }) := by decide +kernel

/-! Trust and firmware. -/

/-- The firmware page holds the states of slots 0 and 1. -/
def firmware (a b : Byte) (running : Option Nat) : State :=
  let data : Bytes := [a, b]
  { linked with
    nv := { linked.nv with
      pages := [{ page := fwPage, cur := { phys := fwPage, data, crc := BitVec.ofNat 32 (crc32c data), txn := 0 }, prev := none }] }
    sec := { linked.sec with runningSlot := running } }

theorem witness_FirmwareCommands :
    (let c := cmd 0x8001 (leBytes 4 0 ++ leBytes 4 4096 ++ leBytes 4 1) 64
     let s := host c (firmware 5 0 (some 0))
     bitOf (leAt c.payload 8 4) 0 = true ∧ s.sec.dl = none ∧ 64 ≤ s.nv.spares.length ∧ starts s c = true ∧ s.roleOf 0 = 1
       ∧ s.nvUp = true ∧ s.inTrial = false ∧ s.sgInDevice 0 = false ∧ s.inactiveSlot = 1
      ∧ (List.replicate 4096 (0 : Byte)).length % 4096 = 0 ∧ leAt c.payload 4 4 = 4096 ∧ 0x100000 ≤ 0x100000)
      ∧ (let c := cmd 0x8001 []
         let s := host c (firmware 4 0 (some 0))
         starts s c = true ∧ s.inTrial = true ∧ replyOfRun (after (.fwDownload 10 0 5 []) s) = [(.busy, 0)])
      ∧ (let c := cmd 0x8002 []
         let s := host c (firmware 5 1 (some 0))
         starts s c = true ∧ s.inTrial = false ∧ s.fwState 1 ≠ 0)
      ∧ (let c := cmd 0x8003 [1, 0, 0, 0]
         starts (host c (firmware 5 1 (some 0))) c = true ∧ (host c (firmware 5 1 (some 0))).fwState 1 ≠ 2
          ∧ (host c (firmware 5 2 (some 0))).fwState 1 = 2 ∧ starts (host c (firmware 5 2 (some 0))) c = true
          ∧ (after (.fwActivate 10 0 5) (host c (firmware 5 2 (some 0)))).nv.running.isSome = true
          ∧ ((firmware 5 2 (some 0)).restartDelay [(0, c)]).sec.restartAt = some 10000000
          ∧ ((firmware 5 2 (some 0)).restartDelay [(0, cmd 0x8003 [0, 0, 0, 0])]).sec.restartAt = none)
      ∧ (let c := cmd 0x8004 []
         starts (host c (firmware 5 0 (some 0))) c = true ∧ (firmware 5 0 (some 0)).inTrial = false
          ∧ starts (host c (firmware 4 0 (some 0))) c = true ∧ (firmware 4 0 (some 0)).fwState 0 = 4
          ∧ (firmware 4 0 (some 0)).fwState (1 - 0) = 0 ∧ (firmware 4 0 (some 0)).sec.runningSlot = some 0) := by decide +kernel

/-- After the read of the page of the slot states. -/
def pageRead (s : State) : State := (s.advance 10).nvFetchAll [fwPage]

theorem witness_FirmwareCommands_page :
    (let s := firmware 5 2 (some 0)
     (pageRead s).inTrial = false ∧ (pageRead s).inactiveSlot = 1 ∧ (pageRead s).fwState 1 = 2 ∧ (pageRead s).nv.spares.length = 192
      ∧ (pageRead (firmware 4 0 (some 0))).inTrial = true ∧ (pageRead (firmware 4 0 (some 0))).sec.runningSlot = some 0
      ∧ (pageRead (firmware 4 0 (some 0))).fwState 0 = 4)
      ∧ (let c := cmd 0x8002 [0]
         starts (host c (firmware 5 1 (some 0))) c = true
          ∧ replyOfRun (after (.fwVerify 10 0 5) (host c (firmware 5 1 (some 0)))) = [(.badParam, 0)]
          ∧ replyOfRun (after (.fwVerify 10 0 5) (host c (firmware 4 1 (some 0)))) = [(.busy, 0)])
      ∧ (let c := cmd 0x8002 []
         replyOfRun (after (.fwVerify 10 0 5) (host c (firmware 5 0 (some 0)))) = [(.imageBad, 0)])
      ∧ (let c := cmd 0x8003 [2, 0, 0, 0]
         starts (host c (firmware 5 2 (some 0))) c = true
          ∧ replyOfRun (after (.fwActivate 10 0 5) (host c (firmware 5 2 (some 0)))) = [(.badParam, 0)]
          ∧ replyOfRun (after (.fwActivate 10 0 5) (host c (firmware 4 2 (some 0)))) = [(.busy, 0)])
      ∧ (let c := cmd 0x8004 [0]
         starts (host c (firmware 5 0 (some 0))) c = true
          ∧ replyOfRun (after (.fwConfirm 10 0 5) (host c (firmware 5 0 (some 0)))) = [(.badParam, 0)])
      ∧ (let c := cmd 0x8004 []
         replyOfRun (after (.fwConfirm 10 0 5) (host c (firmware 5 0 (some 0)))) = [(.doneMarked, 0)])
      ∧ (let c := cmd 0x8001 (leBytes 4 0 ++ leBytes 4 0 ++ leBytes 4 0) 64
         let s := host c ((firmware 5 0 (some 0)).modSec fun k => { k with dl := some [] })
         let f : State := { s with nv := { s.nv with spares := [] } }
         starts f c = true ∧ f.nv.spares.length < 64 ∧ replyOfRun (after (.fwDownload 10 0 5 []) f) = [(.done, 0)]) := by
  decide +kernel

theorem witness_FirmwareCommands_download :
    (let c (flags : Nat) := cmd 0x8001 (leBytes 4 0 ++ leBytes 4 4096 ++ leBytes 4 flags) 64
     let area : Bytes := List.replicate 4096 0
     let s (flags : Nat) : State := host (c flags) ((firmware 5 0 (some 0)).modSec fun k => { k with dl := some [] })
     starts (s 0) (c 0) = true ∧ (s 0).sec.dl = some [] ∧ area.length = 4096
      ∧ ((after (.fwDownload 10 0 5 area) (s 0)).sec.dl.map (·.length)) = some 4096
      ∧ starts (s 2) (c 2) = true ∧ (after (.fwDownload 10 0 5 area) (s 2)).sec.dl = none
      ∧ starts (s 3) (c 3) = true ∧ (after (.fwDownload 10 0 5 area) (s 3)).nv.running.isSome = true
      ∧ starts (s 1) (c 1) = true ∧ ((after (.fwDownload 10 0 5 area) (s 1)).sec.dl.map (·.length)) = some 4096
      ∧ (let f : State := { s 1 with nv := { (s 1).nv with spares := [] } }
         f.nv.spares.length < 64 ∧ starts f (c 1) = true ∧ replyOfRun (after (.fwDownload 10 0 5 area) f) = [(.nvFull, 0)])
      ∧ (let d : Cmd := { c 1 with wait := .download 1 [] none }
         let f := host d (firmware 0 5 (some 1))
         d.wait = .download 1 [] none ∧ bitOf 1 0 = true ∧ bitOf 1 1 = false
          ∧ replyOfRun (f.downloadGoesOn [(0, d)] true) = [(.done, 4096)]
          ∧ (f.downloadGoesOn [(0, d)] false).sec.dl = none)) := by decide +kernel

def chal (mode : Nat) : Challenge := { mode, slot := 0, hn := [], he := [], dn := [], draw := 0, t1 := [], expires := 100 }

theorem witness_HostAuthentication :
    (let c := cmd 0x7001 (List.replicate 132 0) 64
     starts (host c) c = true ∧ run.modeFor 0 = some 3 ∧ run.modeFor 0 ≠ some (leAt c.payload 129 1) ∧ leAt c.payload 131 1 = 0)
      ∧ (let c := cmd 0x7001 (List.replicate 129 0 ++ [3, 0, 0]) 64
         starts (host c) c = true ∧ leAt c.payload 129 1 = 3 ∧ (run.ctx 0).lockUntil = none ∧ (host c).sgInDevice 0 = false
          ∧ (0 : Ctx).val < run.ctxs.length)
      ∧ (let c := cmd 0x7002 (List.replicate 96 0)
         starts (host c) c = true ∧ ((host c).ctx 0).challenge = none
          ∧ replyOfRun (after (.authResponse 10 0 5) (host c)) = [(.authFail, 0)]
          ∧ (let s := (host c).modCtx 0 fun k => { k with challenge := some (chal 3) }
             (s.ctx 0).challenge = some (chal 3) ∧ c.payload.length = (if (chal 3).mode = 2 then 320 else 96)
              ∧ (s.advance 100).starting 0 5 0x7002 = some c
              ∧ replyOfRun (after (.authResponse 100 0 5) s) = [(.authFail, 0)]
              ∧ replyOfRun (after (.authResponse 99 0 5) s) = [(.done, 0)]))
      ∧ (let c := cmd 0x7002 (List.replicate 320 0)
         starts (host c) c = true ∧ c.payload.length = (if (chal 2).mode = 2 then 320 else 96))
      ∧ (let s := run.modCtx 0 fun k => { k with authFails := 7, challenge := some (chal 3), lockUntil := some 100 }
         (s.ctx 0).authFails = 7 ∧ ((s.authFailed 0 1).ctx 0).lockUntil = some 60000000000
          ∧ ((after (.authChallengeExpiry 100 0) s).ctx 0).challenge = none
          ∧ ((after (.authLockoutEnd 100 0) s).ctx 0).lockUntil = none) := by decide +kernel

theorem witness_HostAuthentication_lock :
    (let c := cmd 0x7001 (List.replicate 129 0 ++ [3, 0, 0]) 64
     let s := (host c).modCtx 0 fun k => { k with lockUntil := some 100 }
     (s.ctx 0).lockUntil = some 100 ∧ (s.advance 10).starting 0 5 0x7001 = some c ∧ max s.time 10 < 100 ∧ s.modeFor 0 = some 3)
      ∧ (let c := cmd 0x7002 (List.replicate 96 0)
         let s := (host c).modCtx 0 fun k => { k with challenge := some (chal 0) }
         s.nvUp = false ∧ (chal 0).mode = 0 ∧ replyOfRun (after (.authResponse 99 0 5) s) = [(.failedFault, 0)]
          ∧ replyOfRun (after (.authResponse 100 0 5) s) = [(.authFail, 0)])
      ∧ ({ run with boot := .basecamp } : State).boot = .basecamp := by decide +kernel

theorem witness_AttestationAndProvisioning :
    (let c := cmd 0x7010 (List.replicate 48 0) 64
     starts (host c) c = true ∧ (host c).sgInDevice 0 = false ∧ ((host c).ctx 0).busOff = false
      ∧ starts (host (cmd 0x7010 [])) (cmd 0x7010 []) = true)
      ∧ (let c := cmd 0x7020 []
         starts (host c) c = true ∧ run.nvUp = false ∧ linked.nvUp = true ∧ linked.ownerRefusal 0 c = some .badParam
          ∧ replyOfRun (after (.ownerProvision 10 0 5) (host c)) = [(.failedFault, 0)])
      ∧ (let c := cmd 0x7020 (6 :: List.replicate 199 0)
         let s := host c linked
         starts s c = true ∧ s.ownerRefusal 0 c = none ∧ leAt c.payload 0 1 = 6 ∧ 64 ≤ s.nv.spares.length
          ∧ ((after (.ownerProvision 10 0 5) s).ctx 0).inflight.map (·.wait) = [.nv 1 (some 0)]
          ∧ (s.provisionEffect c).sec.otp.epoch = s.sec.otp.epoch + 1
          ∧ (let f := { linked with nv := { linked.nv with spares := linked.nv.spares.take 63 } }
             f.nv.spares.length < 64 ∧ replyOfRun (after (.ownerProvision 10 0 5) (host c f)) = [(.nvFull, 0)])) := by decide +kernel

/-- OP 2 of Table 10.8 takes the lowest slot that is not in use, OP 3 revokes one. -/
theorem test_provisionEffect :
    ((run.provisionEffect (cmd 0x7020 [2])).sec.otp.slots.map (·.1)) = [1, 0, 0, 0]
      ∧ (let s := run.provisionEffect (cmd 0x7020 [2])
         s.unusedSlot = some 1 ∧ ((s.provisionEffect (cmd 0x7020 [3, 0])).sec.otp.slots.map (·.1)) = [2, 0, 0, 0]) := by decide +kernel

/-! Links. -/

/-- A flit with its CRC. -/
def flitOf (v : Nat) : BitVec 256 := BitVec.ofNat 256 (v + 2 ^ 240 * flitCrc v)
/-- A sideband word with its CRC: number n, code k, detail d. -/
def sideband (n k d : Nat) : BitVec 20 :=
  let v := 2 * k + 32 * d + 2048 * n
  BitVec.ofNat 20 (v + 32768 * crc4 (bitsLsb 14 (v / 2)) + 2 ^ 19)

theorem witness_FlitsAndClassZeroEvents_flits :
    linked.linkUp .fc = true ∧ flitGood 1 = false
      ∧ ((after (.linkFlitReceived 4 .fc 1) linked).side .fc).sent = some (2, (linked.side .fc).rxSeq)
      ∧ (let v := (flitOf (linked.side .cf).rxSeq).toNat
         flitGood v = true ∧ flitLink v = false ∧ flitSeq v = (linked.side .cf).rxSeq
          ∧ ((after (.linkFlitReceived 4 .cf (flitOf (linked.side .cf).rxSeq)) linked).side .cf).unacked = 1)
      ∧ (let v := (flitOf (((linked.side .fc).rxSeq + 1) % 256)).toNat
         flitGood v = true ∧ flitLink v = false ∧ flitSeq v ≠ (linked.side .fc).rxSeq)
      ∧ (let v := (flitOf ((linked.side .fc).rxSeq + 256 + 1024 + 2048)).toNat
         flitGood v = true ∧ flitLink v = false ∧ flitSeq v = (linked.side .fc).rxSeq ∧ flitEom v = true ∧ flitClass v = 1
          ∧ flitSom v = true)
      ∧ (let v := (flitOf (4096 + 65536)).toNat
         flitGood v = true ∧ flitLink v = true ∧ flitCode v = 1) := by decide +kernel

theorem witness_FlitsAndClassZeroEvents_events :
    sidebandOk .fc (0 : BitVec 20).toNat = false ∧ (after (.sidebandWordReceived 4 .fc 0) linked).par .glnSbErrCnt = 1
      ∧ sidebandOk .fc (sideband 3 1 0).toNat = true
      ∧ (let s := { linked with links := { linked.links with actFC := 0xFFFF } }
         (s.acted .fc).2.getLsbD ((bitsOf (sideband 3 1 0).toNat 14 11 + 16 - (s.acted .fc).1 % 16) % 16) = true)
      ∧ (let k := (16 + 65536 - (linked.acted .fc).1) % 65536
         k = 16 ∧ goes (.class0Message 4 .fc 16 1 0 0) linked ((linked.advance 4).perfEvent 5 0x13) = true)
      ∧ run.linkUp (laneOf .cf) = false ∧ goes (.class0Message 4 .cf 15 1 0 0) run (run.advance 4) = true
      ∧ linked.linkUp (laneOf .cf) = true ∧ (linked.acted .cf).2.getLsbD 15 = false
      ∧ (after (.class0Message 4 .cf 15 1 0 0) linked).acted .cf = (0, 0x8000) := by decide +kernel

theorem witness_FlitsAndClassZeroEvents_messages :
    parseMsg (LinkMsg.frameStart 3 100).bytes = some (.frameStart 3 100)
      ∧ parseMsg (LinkMsg.hkResult 31 9).bytes = some (.hkResult 31 9)
      ∧ parseMsg (LinkMsg.videoRow 3 7 767 true [65535]).bytes = some (.videoRow 3 7 767 true [65535])
      ∧ parseMsg (LinkMsg.event ⟨8, 3⟩ 0x0600 [1, 2]).bytes = some (.event ⟨8, 3⟩ 0x0600 [1, 2])
      ∧ parseMsg (LinkMsg.adcTrim [(-128, 65535, true), (127, 0, false)]).bytes = some (.adcTrim [(-128, 65535, true), (127, 0, false)])
      ∧ (linked.message .cf 2 (LinkMsg.adcTrim [(-1, 16384, true)]).bytes).hk.trim = [(-1, 16384, true)]
      ∧ parseMsg (LinkMsg.sensors [4095, 0]).bytes = some (.sensors [4095, 0])
      ∧ (linked.message .cf 1 (LinkMsg.sensors [4095]).bytes).hk.remote.head? = some (some (4095, 0))
      ∧ ((linked.message .fc 1 (LinkMsg.hkResult 31 9).bytes).hk.shown.getD 31 0) = 9
      ∧ sidebandOk .cf (sideband 15 1 1).toNat = true ∧ (linked.acted .cf).2.getLsbD 15 = false
      ∧ (after (.sidebandWordReceived 4 .cf (sideband 15 1 1)) linked).acted .cf = (0, 0x8000)
      ∧ (let v := (flitOf (4096 + 2 * 65536)).toNat
         flitGood v = true ∧ flitLink v = true ∧ flitCode v = 2) := by decide +kernel

theorem witness_LinkTimersAndRetrains :
    (let s := linked.modSide .fc fun k => { k with unacked := 1, replay := [(9, 100)] }
     (s.side .fc).unacked ≠ 0 ∧ ((after (.linkAckTimer 4 .fc) s).side .fc).unacked = 0 ∧ (s.side .fc).replay = (9, 100) :: []
      ∧ s.linkUp .fc = true ∧ ((after (.linkAckTimeout 2100 .fc) s).side .fc).replay = [(9, 2100)]
      ∧ (let u := s.setPar (retrainLimit .fc) 0 1
         u.par (retrainLimit .fc) ≤ (u.side .fc).window + 1 ∧ (after (.linkAckTimeout 2100 .fc) u).linkUp .fc = false))
      ∧ (let s (n : Nat) : State := { linked with links := { linked.links with gln := .retraining, failed := n } }
         LinkDir.cf ≠ .vx ∧ (s 0).links.gln = .retraining ∧ (after (.linkRetrainDone 4 .cf 8 2 []) (s 2)).links.width = 0x23
          ∧ (s 2).links.failed = 2 ∧ (after (.linkRetrainDone 4 .cf 7 2 []) (s 2)).links.gln = .down ∧ (s 1).links.failed < 2
          ∧ (after (.linkRetrainDone 4 .cf 8 1 []) (s 1)).links.failed = 2)
      ∧ (let s := { linked with links := { linked.links with vxState := .training } }
         s.links.vxState = .training ∧ (after (.linkRetrainDone 4 .vx 8 8 []) s).links.vxState = .up
          ∧ (after (.linkRetrainDone 4 .vx 8 7 []) s).links.vxState = .down
          ∧ s.boot = .running ∧ s.thm.shutdown = false ∧ ({ s with boot := .rom } : State).boot ≠ .running
          ∧ goes (.linkRetrainDone 4 .vx 8 8 []) { s with boot := .rom } (({ s with boot := .rom } : State).advance 4) = true
          ∧ (after (.linkRetrainDone 4 .vx 8 7 []) { s with links := { s.links with vxState := .retraining } }).links.vxState = .down)
      ∧ (linked.side .fc).unacked = 0
      ∧ (let s := { linked with links := { linked.links with gln := .retraining } }.modSide .fc fun k => { k with unacked := 1 }
         s.linkUp .fc = false ∧ goes (.linkAckTimer 4 .fc) s (s.advance 4) = true) := by decide +kernel

/-! The pair. -/

def paired (f : Pair → Pair := id) (s : State := run) : State := { s with pair := f { s.pair with mode := .paired } }

theorem witness_PairCommands :
    (let c := cmd 0x9001 [2, 0, 0, 0]
     let s := host c ({ run with pair := { run.pair with mode := .detached } } : State) |>.setPar .pairBoard 0 1
     starts s c = true ∧ s.dbg.level ≠ 2 ∧ s.par .pairBoard ≠ 0 ∧ s.pair.mode = .detached
      ∧ ((s.ctx 0).inflight.find? fun c => c.tag % 2048 == 5 && c.wait == .pairJoin 1) = none
      ∧ (after (.pairJoin 10 0 5 peer) s).pair.mode = .sole)
      ∧ (let c := cmd 0x9001 [1, 0, 0, 0]
         let s := host c ({ run with pair := { run.pair with mode := .detached } } : State) |>.setPar .pairBoard 0 1
         starts s c = true ∧ peer.joined = false ∧ ((after (.pairJoin 10 0 5 peer) s).ctx 0).inflight.map (·.wait) = [.pairJoin 1])
      ∧ (let c := cmd 0x9002 [] 64
         starts (host c) c = true ∧ (host c).sgInDevice 0 = false ∧ ((host c).advance 10).pairRecord.length ≤ 64)
      ∧ (let c := cmd 0x9003 [2, 0, 0, 0]
         let s := host c (paired id reading3)
         starts s c = true ∧ s.pair.mode = .paired ∧ ((after (.pairHandover 10 0 5) s).ctx 0).inflight.map (·.wait) = [.pairHandover 2])
      ∧ (let c := cmd 0x9001 [1, 0, 0, 0]
         let u : State := { linked with pair := { run.pair with mode := .detached }, links := { linked.links with vxState := .up } }
         let s := ((host c u).setPar .pairBoard 0 1).setPar .pairPeerId 0 7
         let q := { peer with joined := true }
         starts s c = true ∧ q.joined = true ∧ s.links.vxState = .up ∧ padTo 16 q.devId ≠ s.wantedPeer)
      ∧ starts (host (cmd 0x9003 [1, 0, 0, 0]) paired) (cmd 0x9003 [1, 0, 0, 0]) = true := by decide +kernel

/-- A peer that this device's PAIR_PEER_ID names and that shares its owner; whether its proof holds is open. -/
def friend : PeerJoin :=
  { peer with joined := true, devId := 7 :: List.replicate 15 0, peerId := devId, ownerHashes := [sha []] }
def joiner (payload : Bytes := [1, 0, 0, 0]) : State :=
  let u : State := { linked with
    pair := { run.pair with mode := .detached }, links := { linked.links with vxState := .up }
    mem := { linked.mem with gib := 8 }, sec := { linked.sec with otp := { linked.sec.otp with slots := [(1, [])], revision := 0 } } }
  ((host (cmd 0x9001 payload) u).setPar .pairBoard 0 1).setPar .pairPeerId 0 7

theorem padTo_length (n : Nat) (b : Bytes) : (padTo n b).length = n := by
  simp only [padTo, sliceB, List.length_append, List.length_replicate, List.length_take, List.length_drop]
  omega
theorem padTo_whole (n : Nat) (b : Bytes) (h : b.length = n) : padTo n b = b := by subst h; simp [padTo, sliceB]

theorem witness_PairCommands_join (h : peerProved friend (Config.p384Public (Config.random 0 48)) = true) :
    (peerProved friend (Config.p384Public (Config.random 0 48)) = true ∧ padTo 16 friend.devId = joiner.wantedPeer
      ∧ padTo 16 friend.peerId = devId ∧ joiner.sharesOwner friend.ownerHashes = true)
      ∧ starts joiner (cmd 0x9001 [1, 0, 0, 0]) = true ∧ joiner.dbg.level ≠ 2 ∧ joiner.par .pairBoard ≠ 0
      ∧ joiner.pair.mode = .detached ∧ joiner.sec.draws = 0 ∧ joiner.links.vxState = .up ∧ friend.joined = true
      ∧ friend.revision = joiner.sec.otp.revision ∧ friend.fwVersion = joiner.fwVersion ∧ friend.memGib = joiner.mem.gib
      ∧ (joiner.modPair fun p => { p with mode := .paired }).budgetHolds = true
      ∧ ({ friend with memGib := 16 } : PeerJoin).memGib ≠ joiner.mem.gib := by
  refine ⟨⟨h, by decide +kernel, padTo_whole _ _ (padTo_length _ _), ?_⟩, by decide +kernel⟩
  show ((1 : Nat) == 1 && List.contains [sha []] (sha []) || false) = true
  simp

theorem witness_PairCommands_refused :
    (let done (s : State) := replyOfRun (after (.pairJoin 10 0 5 friend) s)
     done { joiner with dbg := { joiner.dbg with level := 2 } } = [(.notPermitted, 1)]
      ∧ done (joiner [3, 0, 0, 0]) = [(.badParam, 2)] ∧ done (joiner [1, 0, 0]) = [(.badParam, 2)]
      ∧ done (joiner.setPar .pairBoard 0 0) = [(.badParam, 2)]
      ∧ done { joiner [2, 0, 0, 0] with pair := { joiner.pair with mode := .sole } } = [(.badParam, 2)])
      ∧ (let s := host (cmd 0x9002 [0] 64)
         starts s (cmd 0x9002 [0] 64) = true ∧ replyOfRun (after (.pairStatus 10 0 5 64) s) = [(.badParam, 0)]) := by decide +kernel

theorem witness_HeartbeatsAndPins :
    paired.pair.mode = .paired ∧ paired.pair.sentAt = none ∧ (after (.heartbeatSend 4) paired).pair.alive = true
      ∧ (let s := paired fun p => { p with sentAt := some 100, alive := true }
         s.pair.sentAt = some 100 ∧ (after (.heartbeatSend 100099) s).pair.sentAt = some 100
          ∧ (after (.heartbeatSend 100100) s).pair.sentAt = some 100100
          ∧ (after (.aliveWatchdogExpiry 200100) s).pair.alive = false ∧ (after (.aliveWatchdogExpiry 200099) s).pair.alive = true)
      ∧ ({ beat with tagOk := false } : Heartbeat).tagOk = false ∧ beat.tagOk = true
      ∧ (after (.heartbeatReceived 4 { beat with leaving := true, cause := 3 }) paired).pair.leaveCause = 3
      ∧ (let s := paired fun p => { p with peerRst := true, detectAt := 100 }
         s.pair.peerRst = true ∧ (after (.peerRstRelease 1000100) s).pair.peerRst = false)
      ∧ (after (.handoverMessage 4 ⟨true, .given 0xFF⟩) (paired fun p => { p with own := 0x0F })).pair.raising = 0xF0
      ∧ (after (.handoverMessage 4 ⟨true, .asked⟩) paired).pair.giving = true
      ∧ (after (.handoverMessage 4 ⟨false, .asked⟩) paired).pair.giving = false
      ∧ (let s : State := { run with pair := { run.pair with mode := .joining, role := 1 } }
         s.pair.mode = .joining ∧ (after (.handoverMessage 4 ⟨true, .given 0x0F⟩) s).pair.raising = 0x0F) := by decide +kernel

theorem witness_DetectionTakesThePeersTiles :
    (let s := paired fun p => { p with own := 0x0F, beat := some { beat with leaving := true } }
     s.pair.beat = some { beat with leaving := true } ∧ (after (.pairDetectionSample 10 4) s).pair.raising = 0xF0
      ∧ (after (.pairDetectionSample 10 4) s).pair.mode = .sole)
      ∧ (let s := paired fun p => { p with own := 0x0F, role := 0, rcvdAt := some 100 }
         s.pair.beat = none ∧ s.pair.role = 0 ∧ 100100 + 50000 ≤ max s.time 150100 ∧ 100 + 150000 ≤ max s.time 150100
          ∧ (after (.pairDetectionSample 150100 100100) s).pair.detection = 2)
      ∧ (let s := paired fun p => { p with role := 0, rcvdAt := some 100, aliveFault := true }
         s.pair.beat = none ∧ s.pair.role = 0 ∧ max s.time 50099 < 100 + 50000 ∧ s.pair.rcvdAt = some 100 ∧ max s.time 50099 < 100 + 450000
          ∧ (after (.pairDetectionSample 50099 100) s).pair.aliveFault = false)
      ∧ (let u := { run with pair := { run.pair with mode := .joining, role := 1, raising := 0xF0, detectAt := 100 } }
         (u.advance 5100).joinReady = true ∧ (after (.pairTownRaise 5100) u).pair.own = 0xF0
          ∧ (after (.pairTownRaise 5099) u).pair.mode = .joining)
      ∧ (let u := { run with pair := { run.pair with mode := .sole, own := 0x0F, raising := 0xF0, detectAt := 100 } }
         u.pair.raising ≠ 0 ∧ (after (.pairTownRaise 10100) u).pair.own = 0xFF
          ∧ (after (.pairTownRaise 10099) u).pair.own = 0x0F) := by decide +kernel

theorem witness_DetectionTakesThePeersTiles_partner :
    (let s := paired fun p => { p with role := 1, rcvdAt := some 100, beat := some beat, own := 0xF0 }
     (∀ h ∈ s.pair.beat, h.leaving = false) ∧ 200100 + 50000 ≤ max s.time 250100 ∧ 100 + 250000 ≤ max s.time 250100
      ∧ (after (.pairDetectionSample 250099 200099) s).pair.mode = .paired)
      ∧ (let s := paired fun p => { p with role := 1, rcvdAt := some 100, own := 0xF0 }
         450099 < 450100 + 50000 ∧ 100 + 450000 ≤ max s.time 450100
          ∧ (after (.pairDetectionSample 450100 450099) s).pair.mode = .detached
          ∧ (after (.pairDetectionSample 450100 450099) s).pair.own = 0
          ∧ (after (.pairDetectionSample 450099 450099) s).pair.mode = .paired)
      ∧ (let u := { run with pair := { run.pair with mode := .joining, role := 0, raising := 0xF0, detectAt := 100, peerBundle := some 0 } }
         (u.advance 5100).joinReady = true ∧ (after (.pairTownRaise 5100) u).pair.own = 0x0F) := by decide +kernel

/-- A PARTNER answers a commit of the LEAD's, and drops the values of one that is decided against. -/
def syncing : State :=
  paired (fun p => { p with role := 1, sync := [(9, false, [(tp, 300000)])] }) { linked with links := { linked.links with vxState := .up } }

theorem witness_ForwardingAndSharing_commits :
    syncing.pair.mode = .paired ∧ syncing.pair.role = 1 ∧ syncing.pair.sync ≠ []
      ∧ ((after (.pairParamSync 4 true (.commit 8 [(tp, 1)])) syncing).pair.sync.map (·.1)) = [8, 9]
      ∧ (after (.pairParamSync 4 true (.decide 9 false true)) syncing).pair.sync = []
      ∧ (after (.pairParamSync 4 true (.decide 9 true true)) syncing).pair.sync = [(9, true, [(tp, 300000)])]
      ∧ (let s := paired fun p => { p with role := 0, verdicts := [(9, 1)] }
         s.pair.role = 0 ∧ (after (.pairParamSync 4 true (.verdict 9 0)) s).pair.verdicts = [(9, 0)])
      ∧ (let s := (paired).setPar .hostCtxBind 0 11
         s.isAuth 0 = true ∧ s.bindingOf 0 = 11) := by decide +kernel

def exchHdr : Bytes := leBytes 6 3 ++ [7, 0, 2, 0] ++ List.replicate 6 0

/-- Frame 3 of a pair, whose tile 7 the peer reads. -/
def shared3 : State :=
  let f := { frame3 with paired := true, tiles := (List.replicate 8 .idle).set 7 { FrameTile.idle with own := false } }
  paired (fun p => { p with own := 0x7F }) { reading3 with frames := [f] }
def record7 : Bytes := List.replicate 64 0

theorem witness_PeerMessagesInstallTheirPart :
    (let s := paired (fun p => { p with role := 1 }) (ticking .locked)
     s.pair.role = 1 ∧ s.tick.state ≠ .internal ∧ tickMsg.tagOk = true ∧ (after (.pairTickMessage 4 tickMsg) s).tick.last = some 0
      ∧ (after (.pairTickMessage 4 { tickMsg with tagOk := false }) s).tick.last = some 100
      ∧ ((s.pair.mirrors.find? fun m => m.tile == 7 && m.cands.isSome) = none))
      ∧ shared3.pair.mode = .paired ∧ shared3.owns 7 = false
      ∧ (leAt exchHdr 6 1 = (7 : Tile).val ∧ shared3.reading = shared3.frames.head? ∧ shared3.frames.map (·.num) = [leAt exchHdr 0 6]
          ∧ shared3.frames.map (fun f => (f.paired, (f.tile 7).own)) = [(true, false)] ∧ shared3.firstRow 7 ≤ leAt exchHdr 8 2
          ∧ ((after (.rowExchange 4 ⟨true, exchHdr⟩ []) shared3).frames.map fun f => (f.tile 7).arrived) = [[2]])
      ∧ (let s := shared3
         let m := after (.driftMirror 4 7 ⟨true, .sho 0 [] (List.replicate 6 0 ++ [9, 0]) true⟩) s
         s.owns 7 = false ∧ (7 : Tile).val < s.drift.length ∧ s.peerCycle 7 = false ∧ (s.dr 7).reasons.getLsbD 4 = false
          ∧ (s.pair.mirrors.find? fun m => m.tile == 7 && m.cands.isSome) = none
          ∧ (m.pair.mirrors.find? fun m => m.tile == 7
            && m.cands.isSome) = some { tile := 7, parts := [(0, [])], cands := some (List.replicate 6 0 ++ [9, 0]) }
          ∧ m.pair.mirrorOpen = 0x80 ∧ m.owns 7 = false ∧ m.peerCycle 7 = false ∧ (m.dr 7).reasons.getLsbD 4 = false
          ∧ (after (.tileStateRecord 5 7 ⟨true, record7⟩) m).pair.mirrorOpen = 0
          ∧ ((after (.tileStateRecord 5 7 ⟨true, record7⟩) m).dr 7).candCnt = 9) := by decide +kernel

theorem witness_ForwardingAndSharing :
    (let b : Bytes := leBytes 2 5 ++ List.replicate 14 0
     let c := cmd 1 [] 0 .forwarded
     (replyOf b).early = false ∧ c.eventOnDone = false
      ∧ (((host c).ctx 0).inflight.filter fun d => d.tag % 2048 == (replyOf b).tag % 2048 && d.wait == .forwarded).head? = some c
      ∧ ((after (.forwardedReply 4 true 0 (.reply b)) (host c)).ctx 0).inflight = []
      ∧ ((after (.forwardedReply 4 false 0 (.reply b)) (host c)).ctx 0).inflight = [c])
      ∧ (let s := ((paired).setPar .hostCtxBind 2 11).modCtx 2 fun k => { k with evtMask := 7 }
         s.isAuth 2 = true ∧ s.bindingOf 2 = 11 ∧ ((after (.forwardedReply 4 true 2 .reset) s).ctx 2).evtMask = 0)
      ∧ (let s := paired fun p => { p with role := 1 }
         s.pair.role = 1 ∧ sharedId (Param.tickPeriod.id 0) = true ∧ sharedId 0x0C00 = false ∧ keysRise none s.gens = true
          ∧ (after (.pairParamSync 4 true (.commit 9 [(tp, 1), (0x0C00, 2)])) s).pair.sync = [(9, false, [(tp, 1)])]
          ∧ (after (.pairParamSync 4 true (.gens [(5, 31)])) s).genOf 5 = 31
          ∧ (after (.pairBundleTransfer 4 true (.header [])) s).pair.transfer = none) := by decide +kernel

/-! Power, reset, boot and clocks. -/

def clocked (f : Clocks → Clocks) (s : State := run) : State := { s with clk := f s.clk }
def inRom (f : Clocks → Clocks) : State := { clocked f with boot := .rom }

theorem witness_ResetsAndSelfResets :
    run.boot ≠ .unpowered ∧ 999 < 1000 ∧ goes (.porstNAssert 4 999) run (run.advance 4) = true
      ∧ goes (.brownOut 4 .vddC 999) run (run.advance 4) = true ∧ (after (.porstNAssert 4 1000) run).boot = .inReset
      ∧ (after (.brownOut 4 .vddC 1000) run).clk.cause = 3 ∧ run.nv.running = none
      ∧ (let s := firmware 5 3 (some 0)
         let s : State := { s with sec := { s.sec with restartAt := some 100 } }
         s.sec.restartAt = some 100 ∧ 100 ≤ max s.time 100 ∧ (after (.fwRestartDelay 100) s).clk.cause = 1
          ∧ (after (.fwRestartDelay 100) s).boot = .rom ∧ (after (.fwRestartDelay 99) s).boot = .running)
      ∧ (let s := firmware 4 5 (some 0)
         let s : State := { s with sec := { s.sec with trial := some 0 } }
         let t := s.par .secFwConfirmTime * 1000000000
         s.boot = .running ∧ s.unconfirmed = true ∧ s.sec.resetDue = none ∧ s.sec.bootedAt + t ≤ max s.time t
          ∧ s.nv.running = none ∧ s.nv.buffer = []
          ∧ (after (.fwConfirmTimeout t) s).clk.cause = 2 ∧ (after (.fwConfirmTimeout (t - 1)) s).boot = .running
          ∧ (after (.fwConfirmTimeout t) { s with boot := .basecamp }).boot = .rom) := by decide +kernel

theorem witness_ResetsAndSelfResets_commit :
    (let s := firmware 5 3 (some 0)
     let s : State := { s with sec := { s.sec with restartAt := some 100 }, nv := { s.nv with running := some 1 } }
     s.nv.running ≠ none ∧ s.sec.restartAt = some 100
      ∧ (after (.fwRestartDelay 100) s).sec.resetDue = some 1 ∧ (after (.fwRestartDelay 100) s).boot = .running)
      ∧ (let s : State := { linked with
           nv := { linked.nv with running := some 1, last := 1, lock := 0x80 }, sec := { linked.sec with resetDue := some 1 }
           tick := { linked.tick with nextFrame := 9 } }
         let e := (s.advance 9).transactionEnds 1 0 0
         e.sec.resetDue = some 1 ∧ e.nv.running = none ∧ e.nv.buffer = [] ∧ (after (.nvCommitDone 9 0 0) s).boot = .rom
          ∧ (after (.nvCommitDone 9 0 0) s).nv.lock = 0x80 ∧ (after (.nvCommitDone 9 0 0) s).tick.nextFrame = 9)
      ∧ linked.nv.buffer = [] := by decide +kernel

theorem witness_PorstReleaseAndCrystalCheck :
    State.reset.boot = .inReset ∧ (after (.porstNRelease 4 3 1 true) State.reset).boot = .rom
      ∧ (after (.porstNRelease 4 3 1 false) State.reset).boot = .dead
      ∧ (let s := inRom fun k => { k with crystal := .settling 1, oscSettle := 3, crystalAt := 5 }
         s.clk.crystal = .settling 1 ∧ (after (.oscSettleExpiry 64000005) s).clk.crystal = .comparing 1
          ∧ (after (.oscSettleExpiry 64000004) s).clk.crystal = .settling 1)
      ∧ (let s := inRom fun k => { k with refsel := 0, crystal := .comparing 1 }
         s.clk.refsel = 0 ∧ s.clk.crystal = .comparing 1 ∧ (after (.crystalCheckDone 100000 27500) s).clk.crystal = .accepted
          ∧ (after (.crystalCheckDone 100000 22500) s).clk.crystal = .accepted
          ∧ (after (.crystalCheckDone 100000 27501) s).clk.crystal = .settling 2)
      ∧ (let s := inRom fun k => { k with refsel := 0, crystal := .comparing 2 }
         (after (.crystalCheckDone 100000 22499) s).clk.crystal = .failed)
      ∧ (let s := inRom fun k => { k with refsel := 0, crystal := .accepted, pllC := .off }
         s.awake = true ∧ s.pll .c = .off ∧ s.clk.pllA = .off ∧ (after (.pllLocked 4 .a) s).clk.srcA = 0
          ∧ (after (.pllLocked 4 .c) s).clk.pllC = .locked) := by decide +kernel

def trained8 : List (ChanTrain × Nat) := List.replicate 7 (.derated, 31) ++ [(.trained, 0)]

theorem witness_TrainingAndBootImage :
    (inRom id).boot = .rom ∧ (inRom id).clk.glnTrained = false ∧ (after (.guylineTrainDone 4 8 2) (inRom id)).links.gln = .up
      ∧ (after (.guylineTrainDone 4 7 2) (inRom id)).boot = .basecamp ∧ (after (.guylineTrainDone 4 8 1) (inRom id)).links.gln = .down
      ∧ (let s := inRom fun k => { k with glnTrained := true }
         s.clk.glnTrained = true ∧ s.clk.memTrained = false ∧ trained8.length = 8 ∧ (∀ c ∈ trained8, c.1 ≠ .failed)
          ∧ (after (.memoryTrainDone 4 16 true trained8) s).clk.memTrained = true
          ∧ (after (.memoryTrainDone 4 8 true trained8) s).mem.gib = 8
          ∧ (after (.memoryTrainDone 4 12 true trained8) s).mem.gib = 12
          ∧ (after (.memoryTrainDone 4 9 true trained8) s).boot = .basecamp
          ∧ (∃ c ∈ trained8.set 7 (.failed, 0), c.1 = .failed)
          ∧ (after (.memoryTrainDone 4 8 true (trained8.set 7 (.failed, 0))) s).boot = .basecamp)
      ∧ (let s := inRom fun k => { k with glnTrained := true, memTrained := true }
         s.clk.memTrained = true ∧ s.selectImage.1 = none ∧ (after (.bootImageStart 4) s).boot = .basecamp)
      ∧ (inRom id).sec.otp.transfer = none := by decide +kernel

/-- An ACTIVE slot is the one that runs wherever its image passes the check, which rests on an uninterpreted signature. -/
theorem witness_TrainingAndBootImage_image (s : State) (h : s.chooseSlot = (some 0, s))
    (ok : (s.tryImage 0).1 = true) : s.selectImage.1 = some 0 := by
  obtain ⟨b, u, e⟩ : ∃ b u, s.tryImage 0 = (b, u) := ⟨_, _, rfl⟩
  simp_all [State.selectImage]

theorem witness_TrainingAndBootImage_slot :
    let s : State := { firmware 5 0 none with boot := .rom }
    s.chooseSlot.1 = some 0 ∧ s.chooseSlot.2 = s := by decide +kernel

theorem witness_PowerFailAndPcieResets :
    run.awake = true ∧ run.clk.pfw = false ∧ goes (.pfwNAssert 4 999) run (run.advance 4) = true
      ∧ (after (.pfwNAssert 4 1000) run).clk.pfw = true
      ∧ (let s := clocked fun k => { k with pfw := true, pfwSeen := true, pfwAt := 5 }
         s.clk.pfw = true ∧ goes (.pfwNRelease 200000000 99999999) s (s.advance 200000000) = true
          ∧ (after (.pfwNRelease 200000000 100000000) s).clk.pfw = false)
      ∧ run.hostUp = true ∧ (after (.functionLevelReset 4 7) run).boot = .running
      ∧ (after (.pciePerstNChange 4 true) (clocked fun k => { k with perst := false })).clk.perst = true := by decide +kernel

/-- The start of a switch, the relock time and the coast in µs. -/
def switchParts : PllState → Option (Nat × Nat × Option Nat)
  | .switching since k c => some (since, k, c)
  | _ => none

theorem witness_ReferenceLossAndRcTrim :
    (let s := clocked fun k => { k with pllM := .locked, pllA := .locked, srcA := 0 }
     s.clk.pllC = .locked ∧ s.clk.pllM = .locked ∧ (after (.referenceLost 9 .pcie) s).clk.pllC = .coasting 9 ∧ s.clk.pllA = .locked
      ∧ s.clk.srcA ≠ 2 ∧ (after (.referenceLost 9 .pllA) s).clk.loss = 1)
      ∧ (let s := clocked fun k => { k with pllC := .coasting 4, pllM := .coasting 4, pllA := .coasting 5 }
         s.clk.pllA = .coasting 5 ∧ s.clk.crystal ≠ .failed ∧ s.clk.pllC = .coasting 4 ∧ s.clk.pllM = .coasting 4
          ∧ (switchParts (after (.referenceRestored 7005 .pllA) s).clk.pllA).map (fun p => (p.1, p.2.2)) = some (7005, some 7)
          ∧ (switchParts (after (.referenceRestored 9004 .pcie) s).clk.pllM).map (fun p => (p.1, p.2.2)) = some (9004, some 9))
      ∧ (let s := clocked fun k => { k with pllA := .switching 5 40000 (some 7), srcNext := 1, pllC := .switching 5 10 none }
         let t := 5 + rampLength 40000 true
         s.clk.pllA = .switching 5 40000 (some 7) ∧ (after (.clockSwitchDone t .a) s).clk.srcA = 1
          ∧ (after (.clockSwitchDone (t - 1) .a) s).clk.pllA = .switching 5 40000 (some 7) ∧ s.clk.pllC = .switching 5 10 none
          ∧ (after (.clockSwitchDone (5 + rampLength 10 false) .c) s).clk.pllC = .locked) := by decide +kernel

theorem witness_ReferenceLossAndRcTrim_trim :
    (let s := clocked fun k => { k with pllA := .locked, srcA := 0, rcTrim := 512, rcTrimmed := true, trimAt := 5 }
     let trim (n : Nat) : Clocks := (after (.rcTrimMeasurement 100000005 n) s).clk
     s.awake = true ∧ s.par .clkRcTrimSrc = 0 ∧ s.clk.srcA ≠ 2 ∧ (s.advance 100000005).trimDue = some 1000000
      ∧ (s.advance 100000004).trimDue = none ∧ (after (.rcTrimMeasurement 100000004 0) s).clk.rcErr = 0
      ∧ (trim 0).rcTrimmed = false ∧ (trim 1000100).rcTrim = 512 ∧ (trim 1001000).rcTrimmed = true
      ∧ (trim 998500).rcTrimmed = true ∧ (trim 998499).rcTrimmed = false)
      ∧ (let s := ({ run with tick := { run.tick with fsCount := 16 } } : State).setPar .clkRcTrimSrc 0 1 |>.setPar .tickSrc 0 1
         s.par .clkRcTrimSrc = 1 ∧ s.par .tickSrc = 1 ∧ s.tick.fsCount = 16
          ∧ (s.advance 4).trimDue = some (16 * s.par .fsyncNomPeriod)) := by decide +kernel

/-! The NV store, the ledger and the peg ports. -/

def stored (f : Nv → Nv) : State := { linked with nv := f linked.nv }

theorem witness_NvCommands :
    linked.nvUp = true
      ∧ (let c := cmd 0x6001 (leBytes 1 7 ++ leBytes 1 16 ++ leBytes 2 496 ++ List.replicate 16 0) 64
         let locked := host c (stored fun n => { n with lock := 0x80 })
         let busy := host c (stored fun n => { n with running := some 1, buffer := [(regionBase 7 + 511, zeroPage)] })
         starts locked c = true ∧ locked.nvLocked 7 = true ∧ replyOfRun (after (.nvRead 10 0 5 4096) locked) = [(.locked, 0)]
          ∧ starts busy c = true ∧ busy.nvLocked 7 = false ∧ busy.password 7 false = noPassword ∧ (busy.nvLook 247).recovered = false
          ∧ busy.nvBusy (regionBase 7 + 496) 16 = true
          ∧ starts (host c linked) c = true ∧ linked.nvLocked 7 = false ∧ linked.password 7 false = noPassword
            ∧ (linked.nvLook 247).recovered = false
          ∧ linked.nv.running = none ∧ c.sgAddr ≠ 0 ∧ linked.sgInDevice 0 = false
          ∧ (∀ i : Nat, i < 16 → (linked.nvLook (regionBase 7 + 496 + i)).recovered = false)
          ∧ replyOfRun (after (.nvRead 10 0 5 4096) (host c linked)) = [(.done, 16)])
      ∧ (let c := cmd 0x6002 (leBytes 1 0 ++ leBytes 1 2 ++ leBytes 2 511 ++ leBytes 1 255 ++ leBytes 1 0 ++ leBytes 2 1
           ++ List.replicate 16 0 ++ [0x5A])
         starts (host c linked) c = true ∧ c.payload.length = 24 + 1 ∧ leAt c.payload 2 2 * 256 + leAt c.payload 4 1 + 1 = 512 * 256
          ∧ 80 ≤ linked.nv.spares.length ∧ linked.nvLocked 2 = false ∧ linked.password 2 true = noPassword
            ∧ (linked.nvLook 242).recovered = false
          ∧ ((after (.nvWrite 10 0 5 []) (host c linked)).nvPending (regionBase 2 + 511)).getLast? = some 0x5A
          ∧ (let f := stored fun n => { n with spares := n.spares.take 79 }
             f.nv.spares.length < 80 ∧ starts (host c f) c = true
              ∧ replyOfRun (after (.nvWrite 10 0 5 []) (host c f)) = [(.nvFull, 0)]))
      ∧ (let c := cmd 0x6003 []
         let busy := host c (stored fun n => { n with running := some 1 })
         starts busy c = true ∧ busy.nv.running = some 1 ∧ linked.nv.buffer = [] ∧ linked.nv.waiting = []
          ∧ (host c linked).nvOlder c.order = false ∧ starts (host c linked) c = true
          ∧ replyOfRun (after (.nvCommit 10 0 5) (host c linked)) = [(.done, 0)]
          ∧ ((after (.nvCommit 10 0 5) busy).ctx 0).inflight.map (·.wait) = [.nvQueued none]
          ∧ starts (host (cmd 0x6003 [1]) linked) (cmd 0x6003 [1]) = true) := by decide +kernel

theorem witness_NvUnlockClearsLocksOnly :
    let c := cmd 0x6004 (leBytes 1 0x80 ++ [0, 0, 0])
    let s := host c (stored fun n => { n with lock := 0xC0, fails := n.fails.set 7 8 })
    starts s c = true ∧ s.nvUp = true ∧ s.roleOf 0 = 1 ∧ c.payload.length = 4 ∧ leAt c.payload 0 1 = 0x80 ∧ leAt c.payload 1 3 = 0
      ∧ (after (.nvUnlock 10 0 5) s).nv.lock = 0x40 ∧ (after (.nvUnlock 10 0 5) s).nv.fails.getD 7 9 = 0 := by decide +kernel

theorem witness_CommitsAreWholeOrAbsent :
    (let s := stored fun n => { n with buffer := [(800, zeroPage), (801, zeroPage)], firstAt := some 100 }
     let t := 100 + s.par .nvAutocommit * 1000000
     s.nv.firstAt = some 100 ∧ 100 + s.par .nvAutocommit * 1000000 ≤ max s.time t ∧ s.nv.running = none ∧ s.nv.buffer ≠ []
      ∧ (after (.nvAutocommitExpiry t) s).nv.running = some 1 ∧ (after (.nvAutocommitExpiry (t - 1)) s).nv.running = none)
      ∧ (let s := stored fun n => { n with buffer := [(800, zeroPage), (801, zeroPage)], running := some 1, last := 1 }
         s.nv.running = some 1 ∧ keysRise none s.nv.buffer = true ∧ (after (.nvCommitDone 9 4 1) s).nv.txn = 1
          ∧ ((after (.nvCommitDone 9 4 1) s).nvMap 801).map (·.cur.txn) = some 1
          ∧ (after (.nvCommitDone 9 0 2) s).nv.txn = 0
          ∧ s.nv.spares.Nodup ∧ (∀ p ∈ s.nv.spares, p < 4032) ∧ keysRise none s.nv.wear = true ∧ s.nv.buffer.length + 5 ≤ s.nv.spares.length
          ∧ (s.nv.abandon 1 5 2).spares.length = 187 ∧ (s.nv.abandon 1 5 2).pages = []) := by decide +kernel

theorem witness_ServiceLedger :
    run.hk.on = false ∧ ({ run with hk := { run.hk with on := true } } : State).hk.on = true
      ∧ run.fdieUp = false ∧ linked.fdieUp = true ∧ run.nvUp = false
      ∧ (after (.ledgerHostTimeWrite 4 50) run).wstatus = .failedFault ∧ (after (.ledgerHostTimeWrite 4 50) linked).wstatus = .done
      ∧ replyOfRun (after (.ledgerRead 10 0 5 768) (host (cmd 0x6010 []))) = [(.failedFault, 0)]
      ∧ replyOfRun (after (.ledgerClosePeriod 10 0 5) (host (cmd 0x6011 []))) = [(.failedFault, 0)]
      ∧ (let s := { linked with ledger := { linked.ledger with start := 50, time := 60 } }
         s.ledger.start ≤ (50 : Word).toNat ∧ (after (.ledgerHostTimeWrite 4 50) s).ledger.time = 60
          ∧ (49 : Word).toNat < s.ledger.start ∧ (after (.ledgerHostTimeWrite 4 49) s).ledger.regress = 1)
      ∧ (let c := cmd 0x6011 (List.replicate 12 0)
         let full := host c { linked with ledger := { linked.ledger with closed := 256 } }
         let almost := host c { linked with ledger := { linked.ledger with closed := 255 } }
         starts full c = true ∧ full.nvUp = true ∧ full.roleOf 0 = 1 ∧ leAt c.payload 0 4 = 0 ∧ 256 ≤ full.ledger.closed
          ∧ replyOfRun (after (.ledgerClosePeriod 10 0 5) full) = [(.nvFull, 0)]
          ∧ starts almost c = true ∧ almost.ledger.closed < 256 ∧ 64 ≤ almost.nv.spares.length
          ∧ (after (.ledgerClosePeriod 10 0 5) almost).ledger.closed = 256
          ∧ ({ almost with nv := { almost.nv with spares := [] } } : State).nv.spares.length < 64)
      ∧ (let c := cmd 0x6011 (List.replicate 12 0) 0 (.nvQueued none)
         let s := host c { linked with ledger := { linked.ledger with closed := 255, time := 9 } }
         let g : NvGroup := { ups := [], now := true, owner := some (0, 5), act := .close c.payload }
         s.nvOwner g = some (0, c) ∧ (s.nvTake g).ledger.closed = 256 ∧ (s.nvTake g).ledger.start = 9)
      ∧ (let pay (h : Nat) : Bytes := leBytes 4 h ++ List.replicate 8 0
         let close (h : Nat) : NvGroup := { ups := [], now := true, owner := some (0, 5), act := .close (pay h) }
         let u : State := { linked with ledger := { linked.ledger with start := 7, time := 9 } }
         let s := host (cmd 0x6011 (List.replicate 12 0) 0 (.nvQueued none)) u
         (s.nvTake (close 6)).ledger.regress = 1 ∧ (s.nvTake (close 6)).ledger.start = 9
          ∧ (s.nvTake (close 7)).ledger.regress = 0 ∧ (s.nvTake (close 10)).ledger.start = 10)
      ∧ (let s : State := { linked with hk := { run.hk with on := true }, thm := { run.thm with gov := 1, govF := 2 } }
         s.nv.waiting = [] ∧ (after (.operatingMinute 4) s).thm.peak = 1
          ∧ (after (.operatingMinute 4) { s with links := { s.links with gln := .down } }).thm.peak = 2)
      ∧ (let c := cmd 0x6010 (leBytes 2 0 ++ leBytes 2 256 ++ List.replicate 16 0) 64
         let s := host c linked
         starts s c = true ∧ c.payload.length = 20 ∧ leAt c.payload 2 2 = 256 ∧ s.nvLocked 1 = false
          ∧ s.password 1 false = noPassword ∧ s.nvMap 256 = none
          ∧ (∀ q : Nat, q < 289 → (s.nvLook q).recovered = false) ∧ c.sgAddr ≠ 0 ∧ s.sgInDevice 0 = false) := by decide +kernel

def pegs (f : Peg → Peg) (s : State := linked) : State := s.modPeg 1 f

theorem witness_PegMasterAndSlave_master :
    (let v : BitVec 10 := 14 + 16 * 32
     v.toNat % 16 ≠ 15 ∧ bitsOf v.toNat 9 4 = 32 ∧ linked.pegSlave 1 = false ∧ (linked.peg 1).xfer = none ∧ (linked.peg 1).queued = none
      ∧ (linked.peg (1 - 1)).xfer = none ∧ ((after (.pegXferWrite 4 1 v) linked).peg 1).xfer = some (14, 32)
      ∧ (after (.pegXferWrite 4 1 v) linked).pins.sel = 14 ∧ (after (.pegXferWrite 4 1 v) run).wstatus = .failedFault)
      ∧ bitsOf (BitVec.ofNat 10 (16 * 33)).toNat 9 4 = 33 ∧ bitsOf (15 : BitVec 10).toNat 9 4 = 0
      ∧ ((after (.pegXferWrite 4 1 30) (linked.setPar .pegCfg 1 0x8000)).peg 1).held = some 0x8000
      ∧ (let s := pegs fun k => { k with xfer := some (1, 2), bytes := 1 }
         (s.peg 1).xfer = some (1, 2) ∧ (s.peg 1).bytes < 2 ∧ (s.peg (1 - 0)).xfer ≠ none ∧ linked.pegSlave 0 = false
          ∧ ((after (.pegXferWrite 4 0 (16 + 3)) s).peg 0).queued = some (3, 1)
          ∧ (after (.pegXferWrite 4 1 (16 + 3)) s).wstatus = .busy
          ∧ ((after (.pegPrdyHigh 4 1 9) s).peg 1).rx.getD 1 0 = 9 ∧ s.par .pegRdyTmo 1 ≠ 0
          ∧ ((after (.pegPrdyHigh 4 1 1) (s.setPar .pegCfg 1 0x8000)).peg 1).rx.getD 1 0 = 0x80
          ∧ ((after (.pegPrdyTimeout 4 1) s).peg 1).xfer = some (1, 1))
      ∧ (let s := (pegs fun k => { k with xfer := some (1, 2), bytes := 2 }).modPeg 0 fun k => { k with queued := some (3, 1) }
         (s.peg 1).xfer = some (1, 2) ∧ 2 ≤ (s.peg 1).bytes ∧ 1 < s.pegs.length ∧ (s.peg (1 - 1)).queued = some (3, 1)
          ∧ ((after (.pegTransferDone 4 1) s).peg 0).xfer = some (3, 1)) := by decide +kernel

/-- How much of the FIFO the context has read is a free value: a FIFO that is full whatever that is, and others that are not. -/
theorem witness_PegMasterAndSlave_slave :
    (∀ l : Bytes, l.length < 512 → l.length - Config.freeValue 0 10 % 1024 < 512)
      ∧ 512 ≤ (List.replicate 1535 (0xC0 : Byte)).length - Config.freeValue 0 10 % 1024 := by
  have h := Nat.mod_lt (Config.freeValue 0 10) (by decide : 0 < 1024)
  rw [List.length_replicate]
  exact ⟨fun l hl => by omega, by omega⟩

/-- A byte beyond a full FIFO is discarded and counted, whatever the context has read of the FIFO. -/
def flooded : State :=
  (pegs fun k => { k with selected := true, rxFifo := List.replicate 1535 0xC0 }).setPar .pegCfg 1 1
theorem witness_PegMasterAndSlave_overflow :
    regsWf flooded.regs = true ∧ flooded.pegSlave 1 = true ∧ (flooded.peg 1).discard = false ∧ flooded.par .pegRxOvfCnt 1 = 0
      ∧ 1 < flooded.pegs.length ∧ (flooded.peg 1).selected = true := by decide +kernel

theorem witness_PegMasterAndSlave_frames :
    (let s := (pegs fun k => { k with selected := true, rxFifo := List.replicate 511 0xC0 }).setPar .pegCfg 1 1
     1 < s.pegs.length ∧ s.pegSlave 1 = true ∧ (s.peg 1).selected = true ∧ (s.peg 1).txFrames = [] ∧ (s.peg 1).discard = false
      ∧ (s.peg 1).rxFifo.length < 512 ∧ (s.peg 1).rxFifo ≠ [] ∧ ((after (.pegSsNFall 4 1) s).peg 1).rxFifo = []
      ∧ (let u := s.modPeg 1 fun k => { k with txFrames := [[0xD2, 5]], txPos := 1, rxFifo := [] }
         ([0xD2, 5] : Bytes).head? = some 0xD2 ∧ (u.peg 1).txPos < 256 ∧ (u.peg 1).rxFifo = [] ∧ (u.peg 1).rxFrame = []))
      ∧ (let s := pegged.modPeg 0 fun k => { k with selected := true, rxFifo := [0xC0] }
         (s.peg 0).rxFifo ≠ [] ∧ s.pegContext 0 = some 1 ∧ (after (.pegSsNRise 4 0) s).par .hostRejectCnt 1 = 1) := by decide +kernel

/-! Counters, sampling and debug access. -/

theorem witness_CountersSnapshotsAndSamples :
    (let c := cmd 0xA001 []
     let busy := host c { run with perf := { run.perf with latched := [([], none), ([], none)] } }
     starts (host c) c = true ∧ c.sgAddr = 0 ∧ run.perf.latched.length < 2
      ∧ (after (.perfSnapshot 10 0 5 0) (host c)).perf.snapSeq = 1
      ∧ starts busy c = true ∧ 2 ≤ busy.perf.latched.length ∧ replyOfRun (after (.perfSnapshot 10 0 5 0) busy) = [(.busy, 0)])
      ∧ (let b : Bytes := leBytes 4 127 ++ [9]
         let c := cmd 0xA001 [] 0 .snapshot
         let s := host c { run with perf := { run.perf with latched := [(b, some (0, 5))] } }
         let q := { run with perf := { run.perf with latched := [(b, none)] } }
         cellsWf run.mem.cells = true ∧ q.perf.latched = (b, none) :: [] ∧ (after (.snapshotWritten 4) q).perf.snapIdx = 63
          ∧ s.perf.latched = (b, some (0, 5)) :: [] ∧ c.sgAddr = 0
          ∧ ((s.ctx 0).inflight.find? fun d => d.tag % 2048 == 5 && d.wait == .snapshot) = some c
          ∧ replyOfRun (after (.snapshotWritten 4) s) = [(.done, 63)])
      ∧ (let c := cmd 0xA002 (leBytes 2 4096) 64
         let s := host c { run with perf := { run.perf with samples := [List.replicate 32 7] } }
         starts s c = true ∧ leAt c.payload 0 2 = 4096 ∧ s.sgInDevice 0 = false ∧ 32 * (s.perf.samples.take 4096).length = 32
          ∧ replyOfRun (after (.sampleRead 10 0 5 32) s) = [(.done, 1)])
      ∧ regsWf run.regs = true := by decide +kernel

theorem witness_CountersSnapshotsAndSamples_registers :
    (∃ u : Fin 16, ∃ v : Byte, eventCodeOk u v.toNat = false) ∧ (∃ u : Fin 16, ∃ v : Byte, eventCodeOk u v.toNat = true)
      ∧ (∃ v : Byte, Param.inRange false .sampleCfg 0 v.toNat = false)
      ∧ (∃ v : Byte, Param.inRange false .sampleCfg 0 v.toNat = true) :=
  ⟨⟨0, 0xFF, by decide +kernel⟩, ⟨0, 0, by decide +kernel⟩, ⟨0xFF, by decide +kernel⟩, ⟨0, by decide +kernel⟩⟩

theorem witness_CountersSnapshotsAndSamples_clears :
    (let s := linked.setPar .perfEvsel 5 0
     let u := { s with perf := { s.perf with units := s.perf.units.set 15 { CounterUnit.reset with cnt := List.replicate 8 7, ovf := 3 } } }
     onFDie .perfEvsel 39 = true ∧ onFDie .perfEvsel 40 = false ∧ onFDie .perfCtl 4 = true ∧ onFDie .perfCtl 5 = false
      ∧ (after (.perfEvselWrite 4 4 7 0) run).wstatus = .failedFault ∧ (after (.perfEvselWrite 4 5 0 0) run).wstatus = .done
      ∧ (after (.perfCtlWrite 4 4 0) run).wstatus = .failedFault ∧ (after (.perfCtlWrite 4 4 0) linked).wstatus = .done
      ∧ ((after (.perfClearWrite 4 0x8000) u).perf.units.getD 15 .reset).ovf = 0 ∧ bitOf (0x8000 : BitVec 16).toNat 14 = false
      ∧ (u.perf.units.getD 15 .reset).before = [] ∧ 15 < u.perf.units.length
      ∧ ((((u.clearCounters 15 fun _ => true).perf.units.getD 15 .reset).latched 0).cnt) = List.replicate 8 7) := by decide +kernel

theorem witness_SnapshotsWithTheGuylineDown : ({ run with links := { run.links with gln := .down } } : State).links.gln = .down := rfl

def debugged (level : Nat) : State := { run with dbg := { run.dbg with level, minutes := 5, tap := .dbgAccess } }

theorem witness_DebugReadsArePeeks :
    (∃ (u : Fin 16) (j : Fin 9), DbgReq.counter 15 8 = .counter u j) ∧ (after (.dbgAccess 4 (.counter 15 8)) (debugged 1)).out.length = 1 :=
  ⟨⟨15, 8, rfl⟩, by decide +kernel⟩

theorem witness_DebugUnlockAndAccess_command :
    (let c := cmd 0xA003 [1, 0, 0, 0] 64
     starts (host c) c = true ∧ run.roleOf 0 = 1 ∧ leAt c.payload 0 1 = 1 ∧ (host c).sgInDevice 0 = false)
      ∧ (let c := cmd 0xA003 ([2, 1, 0, 0] ++ List.replicate 96 0)
         starts (host c) c = true ∧ leAt c.payload 1 1 = 1 ∧ c.payload.length = 100
          ∧ replyOfRun (after (.debugUnlock 10 0 5 0) (host c)) = [(.authFail, 0)])
      ∧ (let c := cmd 0xA003 [3, 0, 0, 0]
         starts (host c (debugged 1)) c = true ∧ (debugged 1).dbg.level ≠ 0
          ∧ (after (.debugUnlock 10 0 5 0) (host c (debugged 1))).dbg.level = 0)
      ∧ (let s := { run with dbg := { run.dbg with nonce := some ([1], 100) } }
         s.dbg.nonce = some ([1], 100) ∧ (after (.debugNonceExpiry 100) s).dbg.nonce = none
          ∧ (after (.debugNonceExpiry 99) s).dbg.nonce = some ([1], 100))
      ∧ (debugged 1).dbg.minutes ≠ 0
      ∧ (after (.debugTimeExpiry 4) { debugged 1 with dbg := { (debugged 1).dbg with minutes := 0 } }).dbg.level = 0 := by
  decide +kernel

theorem witness_DebugUnlockAndAccess_access :
    run.boot ≠ .unpowered ∧ (after (.tapInstruction 4 .dbgAccess) run).dbg.tap = .bypass
      ∧ goes (.dbgAccess 4 (.halt 0)) (debugged 1) ((debugged 1).advance 4) = true
      ∧ (debugged 2).dbg.tap = .dbgAccess ∧ (debugged 2).dbg.level = 2 ∧ (debugged 2).haltedAt 3 = none
      ∧ (let s := after (.dbgAccess 4 (.halt 3)) (debugged 2)
         s.haltedAt 3 = some 4 ∧ (after (.dbgAccess 9 (.resume 3)) s).haltedAt 3 = none
          ∧ (let u := { s with dbg := { s.dbg with locks := [(31, 3)] } }
             u.haltedAt 3 = some 4 ∧ max u.time 1000003 < 4 + 1000000 ∧ 4 + 1000000 ≤ max u.time 1000004 ∧ u.dbg.halted.length = 4
              ∧ none ∈ u.dbg.halted ∧ ((31 : Fin 32).val, (3 : Fin 4).val) ∈ u.dbg.locks
              ∧ (after (.lockRevoked 1000003 3 31) u).dbg.locks = [(31, 3)] ∧ (after (.lockRevoked 1000004 3 31) u).dbg.locks = []
              ∧ u.dbg.coreOf.length = 8)) := by decide +kernel

/-- All pins low but FLY_DRV_A and FLY_DRV_B of some tiles. -/
def bridges (a b : BitVec 8) : Cells :=
  { ten := 0, tclk := 0, tsync := 0, trow := 0, tintS := 0, tintL := 0, flyA := a, flyB := b, town := 0, sel := 0, selEn := false, sck := 0
    sdo := 0, prdy := 0, alive := false, peerRst := false, memReset := false, memClock := false, flashCs := false, pcieTx := 0
    vxTx := 0, out0 := 0, out1 := 0, flash := 0, memBus := 0 }

/-- What a capture finds on the balls that the device does not drive. -/
def levels : Scan :=
  { tpClk := 0, tpD := 5, tpLv := 1, pegSck := 0, pegSdi := 3, pegPrdy := 0, pegSsN := 3, straps := 9, refclk := true, pcieRx := 0x55
    vxRx := 0, aliveIn := true, flashDqs := false, pcieTx := 0, vxTx := 0, out0 := 0, out1 := 0, flash := 0, memBus := 0 }

theorem witness_DebugUnlockAndAccess_scan :
    let preload := after (.tapInstruction 4 (.samplePreload levels (bridges 3 1))) run
    preload.dbg.preload = bridges 3 1 ∧ preload.out.length = 1
      ∧ (guardedCells (bridges 3 1)).flyA = 2 ∧ (guardedCells (bridges 3 1)).flyB = 0
      ∧ (after (.tapInstruction 4 (.extest levels)) run).dbg.tap = .bypass
      ∧ (after (.tapInstruction 4 (.extestPulse levels)) run).dbg.tap = .bypass ∧ run.boot ≠ .inReset
      ∧ (after (.tapInstruction 4 (.extest levels)) State.reset).dbg.tap = .extest levels
      ∧ (after (.tapInstruction 4 (.extestTrain levels)) State.reset).out.length = 1 ∧ State.reset.boot = .inReset
      ∧ (after (.tapInstruction 4 .dbgAccess) (debugged 1)).dbg.tap = .dbgAccess ∧ (debugged 1).dbg.level ≠ 2 := by decide +kernel

theorem witness_DebugUnlockAndAccess_cores :
    (let s := after (.dbgAccess 4 (.halt 3)) (debugged 2)
     let u := after (.dbgAccess 9 (.step 3)) s
     s.haltedAt 3 = some 4 ∧ u.haltedAt 3 = some 4 ∧ u.dbg.ages ≠ s.dbg.ages
      ∧ (after (.dbgAccess 9 (.breakpoint 2 64)) s).dbg.breaks = [(2, 64)] ∧ s.dbg.breaks = [])
      ∧ goes (.dbgAccess 4 (.step 0)) (debugged 1) ((debugged 1).advance 4) = true
      ∧ (let c := cmd 0xA003 ([2, 2, 0, 0] ++ List.replicate 96 0)
         let s := (host c).modCtx 1 fun k => { k with mv := { k.mv with started := true } }
         starts s c = true ∧ s.anyStream = true ∧ replyOfRun (after (.debugUnlock 10 0 5 0) s) = [(.busy, 0)])
      ∧ (let f := { debugged 1 with dbg := { (debugged 1).dbg with minutes := 0, forever := true } }
         f.dbg.forever = true ∧ (after (.debugTimeExpiry 4) f).dbg.level = 1) := by decide +kernel

end Sys2Proof.Tests
end

section
/-!
The state after reset: what each reader of State finds in it.
-/
namespace Sys2Proof.ScopeProofs
open Sys2Proof.Machine

/-! Every context, tile and drift record of the reset state is the reset record of its kind. -/

/-- A list of copies of d, read with default d, answers d inside and outside its length. -/
theorem getD_replicate_default {α : Type} (n i : Nat) (d : α) : (List.replicate n d).getD i d = d := by
  rw [List.getD_eq_getElem?_getD, List.getElem?_replicate]
  split <;> rfl

@[simp] theorem reset_ctx (x : Ctx) : State.reset.ctx x = .reset := getD_replicate_default 8 x.val Context.reset
@[simp] theorem reset_tile (t : Tile) : State.reset.tile t = .reset := getD_replicate_default 8 t.val TileSt.reset
@[simp] theorem reset_dr (t : Tile) : State.reset.dr t = .reset := getD_replicate_default 8 t.val Drift.reset

/-! A register or a generation that is not listed reads as its reset value, and the reset state lists none. -/

@[simp] theorem reset_par (p : Param) (i : Nat) : State.reset.par p i = p.reset i := rfl
@[simp] theorem reset_genOf (tag : Nat) : State.reset.genOf tag = 0 := rfl

theorem regsWf_nil : regsWf [] = true := rfl

theorem reset_inv : State.reset.Inv := ⟨Laws.reset_cells_wf, regsWf_nil⟩

/-- Settles O5: each reader of the reset state finds the reset record of its kind, whose fields hold the tables' values. -/
theorem resetStateIsCanonicalWithItsValues : Obligations.ResetStateIsCanonicalWithItsValues := by
  refine ⟨reset_inv, rfl, rfl, rfl, rfl, ?contexts, ?tiles, reset_genOf, rfl, rfl, reset_par .tickPeriod 0, rfl, rfl⟩
  case contexts =>
    intro x
    rw [reset_ctx]
    exact ⟨rfl, rfl, rfl, rfl, rfl⟩
  case tiles =>
    intro t
    rw [reset_tile, reset_dr]
    exact ⟨rfl, rfl, rfl, rfl, rfl, rfl, rfl⟩

end Sys2Proof.ScopeProofs
end

section
/-!
SUPPORT. What the operations that housekeeping shares with other blocks leave alone: messages on the links, register writes with a
row of their own, counts in the counter units, and a flysheet fault.
-/
namespace Sys2Proof.HousekeepingProofs
open Sys2Proof.Machine Sys2Proof.Laws

/-! Messages on the links. -/

/-- A message changes the links alone. -/
theorem sendMessage_eq (s : State) (d : LinkDir) (cls : Nat) (msg : Bytes) :
    s.sendMessage d cls msg = { s with links := (s.sendMessage d cls msg).links } := by
  unfold State.sendMessage State.pump
  split <;> cases d <;> rfl

theorem sendAcross_eq (s : State) (d : LinkDir) (m : LinkMsg) :
    s.sendAcross d m = { s with links := (s.sendAcross d m).links } := by
  unfold State.sendAcross
  split
  · rfl
  · exact sendMessage_eq s d _ _

section
variable (s : State) (d : LinkDir) (m : LinkMsg)
@[simp] theorem sendAcross_time : (s.sendAcross d m).time = s.time := by rw [sendAcross_eq]
@[simp] theorem sendAcross_regs : (s.sendAcross d m).regs = s.regs := by rw [sendAcross_eq]
@[simp] theorem sendAcross_seq : (s.sendAcross d m).seq = s.seq := by rw [sendAcross_eq]
@[simp] theorem sendAcross_frames : (s.sendAcross d m).frames = s.frames := by rw [sendAcross_eq]
@[simp] theorem sendAcross_tiles : (s.sendAcross d m).tiles = s.tiles := by rw [sendAcross_eq]
@[simp] theorem sendAcross_drift : (s.sendAcross d m).drift = s.drift := by rw [sendAcross_eq]
@[simp] theorem sendAcross_hk : (s.sendAcross d m).hk = s.hk := by rw [sendAcross_eq]
@[simp] theorem sendAcross_mem : (s.sendAcross d m).mem = s.mem := by rw [sendAcross_eq]
@[simp] theorem sendAcross_out : (s.sendAcross d m).out = s.out := by rw [sendAcross_eq]

/-- The housekeeping converter's part of the state and a message do not touch each other. -/
theorem pump_modHk (f : Hk → Hk) : (s.modHk f).pump d = (s.pump d).modHk f := by
  have up : (s.modHk f).linkUp d = s.linkUp d := by cases d <;> rfl
  unfold State.pump
  rw [up, apply_ite (State.modHk · f)]
  cases d <;> rfl

theorem sendMessage_modHk (cls : Nat) (msg : Bytes) (f : Hk → Hk) :
    (s.modHk f).sendMessage d cls msg = (s.sendMessage d cls msg).modHk f := by
  unfold State.sendMessage
  rw [← pump_modHk]
  cases d <;> rfl

theorem sendAcross_modHk (f : Hk → Hk) : (s.modHk f).sendAcross d m = (s.sendAcross d m).modHk f := by
  unfold State.sendAcross
  rw [sendMessage_modHk, apply_ite (State.modHk · f), modHk_links]
end

/-! The register file. -/

theorem par_eq_of_regs_eq {s s' : State} (h : s'.regs = s.regs) (p : Param) (i : Nat) : s'.par p i = s.par p i := by
  simp only [State.par, h]

/-- A member of a parameter reads as the value written to it. -/
theorem par_setPar_same {s : State} {p : Param} {i v : Nat} (hwf : regsWf s.regs = true) (hi : i < p.row.count) (hv : v < 2 ^ 32)
    (hr : p.reset i < 2 ^ 32) : (s.setPar p i v).par p i = v := by
  have hrise : keysRise none s.regs = true := (Bool.and_eq_true_iff.mp hwf).1
  simp only [State.par, setPar_regs, putReg, if_neg (Nat.not_le.mpr hi)]
  by_cases hreset : BitVec.ofNat 32 v = BitVec.ofNat 32 (p.reset i)
  · have hvr : v = p.reset i := by
      have h := congrArg BitVec.toNat hreset
      rwa [BitVec.toNat_ofNat, BitVec.toNat_ofNat, Nat.mod_eq_of_lt hv, Nat.mod_eq_of_lt hr] at h
    simp [keyGet_keyDel hrise, hvr]
  · rw [if_neg hreset, keyGet_keyPut, if_pos rfl]
    exact Nat.mod_eq_of_lt hv

/-- The LEAD's forwarding of a write changes the links and what went to the peer. -/
theorem shareWrite_eq (s : State) (id v : Nat) :
    s.shareWrite id v = { s with links := (s.shareWrite id v).links, pair := (s.shareWrite id v).pair } := by
  unfold State.shareWrite
  split
  · unfold State.pairSend
    rw [sendMessage_eq]
  · rfl

section
variable (s : State) (id v : Nat)
@[simp] theorem shareWrite_regs : (s.shareWrite id v).regs = s.regs := by rw [shareWrite_eq]
@[simp] theorem shareWrite_seq : (s.shareWrite id v).seq = s.seq := by rw [shareWrite_eq]
@[simp] theorem shareWrite_frames : (s.shareWrite id v).frames = s.frames := by rw [shareWrite_eq]
@[simp] theorem shareWrite_tiles : (s.shareWrite id v).tiles = s.tiles := by rw [shareWrite_eq]
@[simp] theorem shareWrite_hk : (s.shareWrite id v).hk = s.hk := by rw [shareWrite_eq]
@[simp] theorem shareWrite_mem : (s.shareWrite id v).mem = s.mem := by rw [shareWrite_eq]
end

/-! Register writes with a row of their own (R282, R331): refused on a PARTNER, failed without the guyline, else acted on. -/

section
variable {s : State} (id v : Nat) (act : State → State)

theorem writeAcross_down (h : s.fdieUp = false) : s.writeAcross id v act = { s with wstatus := .failedFault } := by
  simp [State.writeAcross, h]

theorem writeAcross_up (h : s.fdieUp = true) : s.writeAcross id v act = { act (s.valueAcross id v) with wstatus := .done } := by
  simp [State.writeAcross, h]

theorem writeShared_partner (h : s.isPartner = true) : s.writeShared id v act = { s with wstatus := .notPermitted } := by
  simp [State.writeShared, h]

theorem writeShared_down (h : s.isPartner = false) (hd : s.fdieUp = false) :
    s.writeShared id v act = { s with wstatus := .failedFault } := by
  simp [State.writeShared, h, writeAcross_down _ _ _ hd]

theorem writeShared_up (h : s.isPartner = false) (hu : s.fdieUp = true) :
    s.writeShared id v act = { (act (s.valueAcross id v)).shareWrite id v with wstatus := .done } := by
  simp [State.writeShared, h, writeAcross_up _ _ _ hu]
end

/-! Counter units. -/

/-- An event in a counter unit changes the counter units alone. -/
theorem perfEvent_eq (s : State) (u code n : Nat) : s.perfEvent u code n = { s with perf := (s.perfEvent u code n).perf } := by
  unfold State.perfEvent State.perfEventAt
  simp only
  split <;> rfl

section
variable (s : State) (u code n : Nat)
@[simp] theorem perfEvent_regs : (s.perfEvent u code n).regs = s.regs := by rw [perfEvent_eq]
@[simp] theorem perfEvent_frames : (s.perfEvent u code n).frames = s.frames := by rw [perfEvent_eq]
@[simp] theorem perfEvent_tiles : (s.perfEvent u code n).tiles = s.tiles := by rw [perfEvent_eq]
@[simp] theorem perfEvent_drift : (s.perfEvent u code n).drift = s.drift := by rw [perfEvent_eq]
@[simp] theorem perfEvent_hk : (s.perfEvent u code n).hk = s.hk := by rw [perfEvent_eq]
@[simp] theorem perfEvent_links : (s.perfEvent u code n).links = s.links := by rw [perfEvent_eq]
@[simp] theorem perfEvent_mem : (s.perfEvent u code n).mem = s.mem := by rw [perfEvent_eq]
end

/-! A flysheet fault (R163). -/

/-- What a flysheet fault may change, and nothing else: the drift records, the messages and events that tell of it, and the commands
that waited for the cycle. s' is s but for those. -/
def FlyChanges (s s' : State) : Prop :=
  s' = { s with
    drift := s'.drift, ctxs := s'.ctxs, regs := s'.regs, gens := s'.gens, perf := s'.perf, pegs := s'.pegs, out := s'.out
    links := s'.links, pair := s'.pair, dbg := s'.dbg }

theorem flyChanges_trans {a b c : State} (h : FlyChanges a b) (k : FlyChanges b c) : FlyChanges a c := by
  unfold FlyChanges at *
  rw [k, h]

theorem flyChanges_of_reports {s s' : State} (h : Reports s s') : FlyChanges s s' := by
  unfold Reports at h
  unfold FlyChanges
  rw [h]

theorem withCtxs_flyChanges (s : State) (l : List Context) : FlyChanges s { s with ctxs := l } := rfl
theorem withLinks_flyChanges (s : State) (l : Links) : FlyChanges s { s with links := l } := rfl
theorem modDrift_flyChanges (s : State) (t : Tile) (f : Drift → Drift) : FlyChanges s (s.modDrift t f) := rfl
theorem bumpHalf_flyChanges (s : State) (p : Param) (i half n : Nat) : FlyChanges s (s.bumpHalf p i half n) := by
  unfold State.bumpHalf
  simp only
  split <;> rfl

theorem flyEnded_flyChanges (s : State) (t : Tile) (e : FlyEnd) : FlyChanges s (s.flyEnded t e) := by
  unfold State.flyEnded State.flyEndedFor
  exact flyChanges_trans (withCtxs_flyChanges s _) (flyChanges_of_reports (completeWhere_reports _ _))

theorem endCycle_flyChanges (s : State) (t : Tile) (e : FlyEnd) : FlyChanges s (s.endCycle t e) := by
  unfold State.endCycle
  split
  · exact flyChanges_trans (modDrift_flyChanges s t _) (flyEnded_flyChanges _ _ _)
  · rfl

theorem sendMessage_flyChanges (s : State) (d : LinkDir) (cls : Nat) (msg : Bytes) : FlyChanges s (s.sendMessage d cls msg) := by
  rw [sendMessage_eq]
  rfl

theorem raise0_fc_flyChanges (s : State) (code detail cause : Nat) : FlyChanges s (s.raise0 .fc code detail cause) := by
  simp only [State.raise0]
  exact flyChanges_trans (flyChanges_trans (withLinks_flyChanges s _) (flyChanges_of_reports (perfEvent_reports _ _ _ _)))
    (sendMessage_flyChanges _ _ _ _)

theorem drive_flyChanges (s : State) (t : Tile) (d : Drive) (at_ : Time) (len : Nat) : FlyChanges s (s.drive t d at_ len) := by
  unfold State.drive
  split
  · rfl
  · simp only
    rw [sendAcross_eq]
    rfl

theorem flyFault_flyChanges (s : State) (t : Tile) (cause : Nat) (at_ : Time) : FlyChanges s (s.flyFault t cause at_) := by
  unfold State.flyFault
  split
  · rfl
  · have raised (u : State) (f : Drift → Drift) :
        FlyChanges u (((u.modDrift t f).bumpHalf .flyEvtCnt t 1 1).raise0 .fc 2 t cause) :=
      flyChanges_trans (flyChanges_trans (modDrift_flyChanges u t f) (bumpHalf_flyChanges _ _ _ _ _)) (raise0_fc_flyChanges _ _ _ _)
    have ended (f : Drift → Drift) := flyChanges_trans (endCycle_flyChanges s t .faulted) (raised _ f)
    simp only
    split
    · exact flyChanges_trans (ended _) (drive_flyChanges _ _ _ _ _)
    · split
      · exact flyChanges_trans (ended _) (modDrift_flyChanges _ _ _)
      · exact ended _

section
variable {s s' : State} (h : FlyChanges s s')
include h
theorem FlyChanges_hk : s'.hk = s.hk := by rw [h]
theorem FlyChanges_tiles : s'.tiles = s.tiles := by rw [h]
theorem FlyChanges_mem : s'.mem = s.mem := by rw [h]
end

end Sys2Proof.HousekeepingProofs
end

section
/-!
SUPPORT. What each operation of the housekeeping converter does (R97, R103 to R111), one law for each case.
-/
namespace Sys2Proof.HousekeepingProofs
open Sys2Proof.Machine Sys2Proof.Laws

/-! An active value is read from the register file alone. -/

@[simp] theorem par_advance (s : State) (t : Time) (p : Param) (i : Nat) : (s.advance t).par p i = s.par p i := rfl
@[simp] theorem par_modHk (s : State) (f : Hk → Hk) (p : Param) (i : Nat) : (s.modHk f).par p i = s.par p i := rfl
@[simp] theorem par_sendAcross (s : State) (d : LinkDir) (m : LinkMsg) (p : Param) (i : Nat) :
    (s.sendAcross d m).par p i = s.par p i := par_eq_of_regs_eq (sendAcross_regs s d m) p i

/-! The result queue (R110). -/

section
variable {s : State} (w : Nat)

theorem hkPush_off (h : s.par .hkQEn = 0) : s.hkPush w = s := by
  simp [State.hkPush, h]

theorem hkPush_room (h : s.par .hkQEn = 1) (hl : s.hk.queue.length < 128) :
    s.hkPush w = s.modHk fun k => { k with queue := k.queue ++ [w] } := by
  simp [State.hkPush, h, hl]

/-- A full queue discards its oldest word and marks the next one. -/
theorem hkPush_full {oldest next : Nat} {rest : List Nat} (h : s.par .hkQEn = 1) (hq : s.hk.queue = oldest :: next :: rest)
    (hl : 126 ≤ rest.length) :
    s.hkPush w = (s.modHk fun k => { k with queue := (next ||| 0x40000) :: (rest ++ [w]) }).bump .hkQOvfCnt := by
  have hfull : ¬ s.hk.queue.length < 128 := by
    rw [hq, List.length_cons, List.length_cons]
    omega
  simp only [State.hkPush, State.modHk, h, hq, if_neg (hq ▸ hfull)]
  rfl

/-- A push changes the queue and the counter of its overflows. -/
theorem hkPush_eq (s : State) (w : Nat) :
    s.hkPush w = { s with regs := (s.hkPush w).regs, hk := { s.hk with queue := (s.hkPush w).hk.queue } } := by
  unfold State.hkPush
  split
  · rfl
  · split <;> rfl
end

section
variable (s : State) (w : Nat)
@[simp] theorem hkPush_last : (s.hkPush w).hk.last = s.hk.last := by rw [hkPush_eq]
@[simp] theorem hkPush_round : (s.hkPush w).hk.round = s.hk.round := by rw [hkPush_eq]
@[simp] theorem hkPush_links : (s.hkPush w).links = s.links := by rw [hkPush_eq]
@[simp] theorem hkPush_frames : (s.hkPush w).frames = s.frames := by rw [hkPush_eq]
@[simp] theorem hkPush_tiles : (s.hkPush w).tiles = s.tiles := by rw [hkPush_eq]
@[simp] theorem hkPush_drift : (s.hkPush w).drift = s.drift := by rw [hkPush_eq]
@[simp] theorem hkPush_mem : (s.hkPush w).mem = s.mem := by rw [hkPush_eq]
end

/-! Results and entries (R103, R104, R110). -/

/-- s' is s after a result: HK_LAST holds its word, the C-die is sent it, and the queue has taken it where it is on. -/
def WritesResult (s : State) (ch v : Nat) (inj stale : Bool) (s' : State) : Prop :=
  let stamp := hkStamp s.time
  let word := v + 4096 * stamp + (if stale then 2 ^ 24 else 0) + 2 ^ 25
  let queued := v + 4096 * ch + (if inj then 0x20000 else 0) + (if stale then 0x80000 else 0) + 2 ^ 20 * stamp
  s'.hk.last = s.hk.last.set ch word
  ∧ s'.links = (s.sendAcross .fc (.hkResult ch word)).links
  ∧ (s.par .hkQEn = 0 → s'.hk.queue = s.hk.queue ∧ s'.regs = s.regs)
  ∧ (s.par .hkQEn = 1 → s.hk.queue.length < 128 → s'.hk.queue = s.hk.queue ++ [queued] ∧ s'.regs = s.regs)
  ∧ (∀ (oldest next : Nat) (rest : List Nat), s.par .hkQEn = 1 → s.hk.queue = oldest :: next :: rest → 126 ≤ rest.length →
      s'.hk.queue = (next ||| 0x40000) :: (rest ++ [queued]) ∧ s'.regs = (s.bump .hkQOvfCnt).regs)
  ∧ s'.tiles = s.tiles ∧ s'.frames = s.frames ∧ s'.mem = s.mem ∧ s'.drift = s.drift

theorem hkWrite_writesResult (s : State) (ch v : Nat) (inj stale : Bool) :
    WritesResult s ch v inj stale (s.hkWrite ch v inj stale) := by
  simp only [WritesResult, State.hkWrite, sendAcross_modHk, perfEvent_hk, perfEvent_links, perfEvent_regs, perfEvent_tiles,
    perfEvent_frames, perfEvent_mem, perfEvent_drift]
  refine ⟨by simp, by simp, fun hoff => ?off, fun hon hroom => ?room, fun oldest next rest hon hq hfull => ?full, by simp, by simp,
    by simp, by simp⟩
  case off => simp [hkPush_off, hoff]
  case room => simp [hkPush_room, hon, hroom]
  case full =>
    rw [hkPush_full (oldest := oldest) (next := next) (rest := rest) _ (by simpa using hon) (by simpa using hq) hfull]
    simp [State.bump]

/-- s' is s at the end of an entry: a result of an own channel, or of a remote one the latest value received, if there is one. -/
def EntryEnds (s : State) (e : Nat) (tile : Option Nat) (inj : Bool) (volts : List Nat) (s' : State) : Prop :=
  let ch := entryChannel e tile
  (within 6 13 ch = false → WritesResult s ch (entryValue e ch volts) inj false s')
  ∧ ∀ i : Fin 8, ch = 6 + i.val → (s.hk.remote.getD i.val none = none → s'.hk.last = s.hk.last ∧ s'.hk.queue = s.hk.queue)
    ∧ ∀ (v : Nat) (at_ : Time), s.hk.remote.getD i.val none = some (v, at_) →
      WritesResult s ch v inj (decide (2000000 < s.time - at_)) s'

section
variable {s : State} {e : Nat} {tile : Option Nat} (inj : Bool) (volts : List Nat)

theorem hkEntry_own (h : within 6 13 (entryChannel e tile) = false) :
    s.hkEntry e tile inj volts = s.hkWrite (entryChannel e tile) (entryValue e (entryChannel e tile) volts) inj false :=
  if_neg (by simpa only [within, Bool.not_eq_true] using h)

/-- A channel of the C-die's, TC0 to TC7. -/
theorem within_remote (i : Fin 8) : (decide (6 ≤ 6 + i.val) && decide (6 + i.val ≤ 13)) = true := by
  have hlt := i.isLt
  simp only [Bool.and_eq_true, decide_eq_true_eq]
  omega

theorem hkEntry_remote_none {i : Fin 8} (h : entryChannel e tile = 6 + i.val) (hv : s.hk.remote.getD i.val none = none) :
    s.hkEntry e tile inj volts = s := by
  simp only [State.hkEntry, h, within_remote, if_true, Nat.add_sub_cancel_left, hv]

theorem hkEntry_remote_some {i : Fin 8} {v : Nat} {at_ : Time} (h : entryChannel e tile = 6 + i.val)
    (hv : s.hk.remote.getD i.val none = some (v, at_)) :
    s.hkEntry e tile inj volts = s.hkWrite (entryChannel e tile) v inj (decide (2000000 < s.time - at_)) := by
  simp only [State.hkEntry, h, within_remote, if_true, Nat.add_sub_cancel_left, hv]

theorem hkEntry_entryEnds : EntryEnds s e tile inj volts (s.hkEntry e tile inj volts) := by
  refine ⟨fun hown => ?own, fun i hch => ⟨fun hnone => ?none, fun v at_ hsome => ?some⟩⟩
  case own => rw [hkEntry_own inj volts hown]; exact hkWrite_writesResult ..
  case none => rw [hkEntry_remote_none inj volts hch hnone]; exact ⟨rfl, rfl⟩
  case some => rw [hkEntry_remote_some inj volts hch hsome]; exact hkWrite_writesResult ..

/-- An entry writes one result or nothing. -/
theorem hkEntry_cases : s.hkEntry e tile inj volts = s
    ∨ ∃ ch v stale, s.hkEntry e tile inj volts = s.hkWrite ch v inj stale := by
  unfold State.hkEntry
  simp only
  split
  · split
    · exact .inl rfl
    · exact .inr ⟨_, _, _, rfl⟩
  · exact .inr ⟨_, _, _, rfl⟩

theorem hkEntry_keeps : (s.hkEntry e tile inj volts).hk.round = s.hk.round ∧ (s.hkEntry e tile inj volts).tiles = s.tiles
    ∧ (s.hkEntry e tile inj volts).mem = s.mem := by
  obtain h | ⟨ch, v, stale, h⟩ := hkEntry_cases (s := s) (e := e) (tile := tile) inj volts
  · rw [h]; exact ⟨rfl, rfl, rfl⟩
  · rw [h]; simp [State.hkWrite]
end

/-! The motor-current test (R152). -/

theorem currentTest_of_other (s : State) {ch : Nat} (h : within 22 29 ch = false) : s.currentTest ch = s := by
  have hno : ¬ (22 ≤ ch ∧ ch < 30) := by simp [within] at h; omega
  simp only [State.currentTest, dif_neg hno]

theorem currentTest_flyChanges (s : State) (ch : Nat) : FlyChanges s (s.currentTest ch) := by
  unfold State.currentTest
  split
  · simp only
    split
    · exact flyChanges_trans (modDrift_flyChanges s _ _) (flyFault_flyChanges _ _ _ _)
    · rfl
  · rfl

/-! The end of an entry, of a round and of an injected sequence (R105, R109). -/

section
variable {s : State} (volts : List Nat)

theorem entryDone_injected_over {j : Injected} (hj : s.hk.inj = some j) (he : j.entries = []) :
    s.entryDone volts = s.modHk fun h => { h with inj := none } := by
  simp only [State.entryDone, hj, he]

theorem entryDone_injected {j : Injected} {e : Nat} {r : List Nat} (hj : s.hk.inj = some j) (he : j.entries = e :: r) :
    s.entryDone volts = (((s.hkEntry e j.tile true volts).currentTest (entryChannel e j.tile)).modHk fun h =>
      { h with inj := if r = [] then none else some { j with entries := r } }).startWaiting := by
  simp only [State.entryDone, hj, he, List.isEmpty_iff]

theorem entryDone_idle (hj : s.hk.inj = none) (hr : s.hk.round = []) : s.entryDone volts = s := by
  simp only [State.entryDone, hj, hr]

theorem entryDone_round_goes_on {e : Nat} {r : List Nat} (hj : s.hk.inj = none) (hr : s.hk.round = e :: r) (hne : r ≠ []) :
    s.entryDone volts = ((s.hkEntry e none false volts).currentTest (entryChannel e none)).modHk fun h =>
      { h with round := r } := by
  simp [State.entryDone, hj, hr, hne]

theorem entryDone_round_ends {e : Nat} (hj : s.hk.inj = none) (hr : s.hk.round = [e]) :
    s.entryDone volts = (((s.hkEntry e none false volts).currentTest (entryChannel e none)).modHk fun h =>
      { h with round := [] }).roundEnd.startWaiting := by
  simp [State.entryDone, hj, hr]
end

/-! The reference buffer (R97, R98). -/

theorem writeRefen_off (s : State) : s.writeRefen 0 =
    ((s.setPar .adcRefen 0 0).modHk fun h => { h with refReady := false, refAt := none }).refChange false := rfl

theorem writeRefen_on_of_off {s : State} (h : s.par .adcRefen = 0) :
    s.writeRefen 1 = (s.setPar .adcRefen 0 1).modHk fun h => { h with refAt := some s.time } := by
  simp only [State.writeRefen, h, if_true]
  rfl

theorem writeRefen_on_of_on {s : State} (h : s.par .adcRefen ≠ 0) : s.writeRefen 1 = s.setPar .adcRefen 0 1 := by
  simp only [State.writeRefen, if_neg h]
  rfl

/-! Rounds (R105, R106). -/

theorem startWaiting_starts {s : State} (hw : s.hk.waiting = true) (hr : s.hk.round = []) (hj : s.hk.inj = none)
    (hc : s.hk.newCfg = false) : s.startWaiting = s.modHk fun h => { h with round := h.regular, waiting := false } := by
  simp [State.startWaiting, State.startRound, hw, hr, hj, hc]

/-! Injected triggers (R107, R108). -/

section
variable {s : State} {source : Nat} {tile : Option Nat}

theorem injTrigger_disabled (h : bitOf s.hk.trig source = false) : s.injTrigger source tile = s := by
  simp [State.injTrigger, h]

theorem injTrigger_skips (hj : s.hk.inj = none) (he : injectedEntries s.hk.injected tile = []) : s.injTrigger source tile = s := by
  simp [State.injTrigger, hj, he]

theorem injTrigger_starts (hon : s.hk.on = true) (h : bitOf s.hk.trig source = true) (hj : s.hk.inj = none)
    (he : injectedEntries s.hk.injected tile ≠ []) : s.injTrigger source tile = s.modHk fun k =>
      { k with inj := some { entries := injectedEntries s.hk.injected tile, tile, start := s.time, source } } := by
  simp [State.injTrigger, hon, h, hj]

/-- A trigger changes the running sequence and the counts of what it drops. -/
theorem injTrigger_keeps (s : State) (source : Nat) (tile : Option Nat) :
    (s.injTrigger source tile).mem = s.mem ∧ (s.injTrigger source tile).frames = s.frames := by
  unfold State.injTrigger
  simp only
  split
  · exact ⟨rfl, rfl⟩
  · split
    · exact ⟨rfl, rfl⟩
    · exact ⟨rfl, rfl⟩
    · split <;> simp [State.bump]
end

end Sys2Proof.HousekeepingProofs
end

section
/-!
The statements about housekeeping, each assembled from the laws of its commands.
-/
namespace Sys2Proof.HousekeepingProofs
open Sys2Proof.Machine Sys2Proof.Laws

section
variable (t : Time) {s : State}

/-! The reference buffer: ADC_REFEN_WRITE and REF_READY_EXPIRY. -/

theorem exec_adcRefenWrite (s : State) (v : Bool) : exec (.adcRefenWrite t v) s
    = .next ((s.advance t).writeShared (Param.adcRefen.id 0) (if v then 1 else 0) fun u => u.writeRefen (if v then 1 else 0)) := rfl

theorem exec_adcRefenWrite_partner (v : Bool) (h : s.isPartner = true) :
    exec (.adcRefenWrite t v) s = .next { s.advance t with wstatus := .notPermitted } :=
  (exec_adcRefenWrite t s v).trans (congrArg _ (writeShared_partner (s := s.advance t) _ _ _ h))

theorem exec_adcRefenWrite_down (v : Bool) (h : s.isPartner = false) (hd : s.fdieUp = false) :
    exec (.adcRefenWrite t v) s = .next { s.advance t with wstatus := .failedFault } :=
  (exec_adcRefenWrite t s v).trans (congrArg _ (writeShared_down (s := s.advance t) _ _ _ h hd))

theorem exec_adcRefenWrite_up (v : Bool) (h : s.isPartner = false) (hu : s.fdieUp = true) : exec (.adcRefenWrite t v) s = .next
    { (((s.advance t).valueAcross (Param.adcRefen.id 0) (if v then 1 else 0)).writeRefen (if v then 1 else 0)).shareWrite
        (Param.adcRefen.id 0) (if v then 1 else 0) with wstatus := .done } :=
  (exec_adcRefenWrite t s v).trans (congrArg _ (writeShared_up (s := s.advance t) _ _ _ h hu))

/-- ADC_REFEN takes the value written to it. -/
theorem writeRefen_par {v : Nat} (hwf : regsWf s.regs = true) (hv : v < 2 ^ 32) : (s.writeRefen v).par .adcRefen = v := by
  have hregs : (s.writeRefen v).regs = (s.setPar .adcRefen 0 v).regs := by
    unfold State.writeRefen
    simp only
    split
    · rfl
    · split <;> rfl
  rw [par_eq_of_regs_eq hregs]
  exact par_setPar_same hwf (by decide) hv (by decide)

theorem exec_adcRefenWrite_up_par (v : Bool) (h : s.isPartner = false) (hu : s.fdieUp = true) {s' : State}
    (hx : exec (.adcRefenWrite t v) s = .next s') (hwf : regsWf s.regs = true) : s'.par .adcRefen = if v then 1 else 0 := by
  obtain rfl := Host.Outcome.next.inj ((exec_adcRefenWrite_up t v h hu).symm.trans hx)
  have hv : (if v then 1 else 0) < 2 ^ 32 := by cases v <;> decide
  exact (par_eq_of_regs_eq (shareWrite_regs _ _ _) _ _).trans (writeRefen_par (by simpa [State.valueAcross] using hwf) hv)

theorem exec_adcRefenWrite_false (h : s.isPartner = false) (hu : s.fdieUp = true) :
    ∃ s', exec (.adcRefenWrite t false) s = .next s' ∧ s'.hk = { s.hk with refReady := false, refAt := none }
      ∧ s'.seq = { s.seq with sampling := s.seq.sampling.map fun r => r.remark (max s.time t) false }
      ∧ (regsWf s.regs = true → s'.par .adcRefen = 0) ∧ s'.mem = s.mem ∧ s'.tiles = s.tiles ∧ s'.frames = s.frames
      ∧ s'.wstatus = .done := by
  have hx := exec_adcRefenWrite_up t false h hu
  refine ⟨_, hx, ?_, ?_, exec_adcRefenWrite_up_par t false h hu hx, ?_⟩ <;>
    simp [writeRefen_off, State.refChange, State.valueAcross]

theorem exec_adcRefenWrite_true (h : s.isPartner = false) (hu : s.fdieUp = true) :
    ∃ s', exec (.adcRefenWrite t true) s = .next s'
      ∧ s'.hk = (if s.par .adcRefen = 0 then { s.hk with refAt := some (max s.time t) } else s.hk) ∧ s'.seq = s.seq
      ∧ (regsWf s.regs = true → s'.par .adcRefen = 1) ∧ s'.mem = s.mem ∧ s'.tiles = s.tiles ∧ s'.frames = s.frames
      ∧ s'.wstatus = .done := by
  have hx := exec_adcRefenWrite_up t true h hu
  refine ⟨_, hx, ?_, ?_, exec_adcRefenWrite_up_par t true h hu hx, ?_⟩ <;>
    by_cases hoff : s.par .adcRefen = 0 <;>
      simp [hoff, writeRefen_on_of_off, writeRefen_on_of_on, State.valueAcross]

theorem exec_refReadyExpiry_ready {at_ : Time} (h : s.hk.refAt = some at_) (hen : s.par .adcRefen = 1)
    (hle : at_ + 2000000 ≤ max s.time t) : exec (.refReadyExpiry t) s
      = .next (((s.advance t).modHk fun h => { h with refReady := true, refAt := none }).refChange true) := by
  show execRefReadyExpiry t s = _
  simp only [execRefReadyExpiry, advance_hk, advance_time, par_advance, h, hen, hle, decide_true, Bool.and_self, if_true]

theorem exec_refReadyExpiry_early {at_ : Time} (h : s.hk.refAt = some at_) (hlt : max s.time t < at_ + 2000000) :
    exec (.refReadyExpiry t) s = .next (s.advance t) := by
  show execRefReadyExpiry t s = _
  simp [execRefReadyExpiry, h, Nat.not_le.mpr hlt]

/-! Entries: HK_ENTRY_DONE. -/

theorem exec_hkEntryDone (volts : List Nat) (hon : s.hk.on = true) :
    exec (.hkEntryDone t volts) s = .next ((s.advance t).entryDone volts) :=
  if_pos hon

end

/-- Settles O16: the reference buffer by the cases of the register write, an entry by hkEntry and the cases of entryDone. -/
theorem referenceBufferAndEntryResults : Obligations.ReferenceBufferAndEntryResults := by
  refine ⟨fun t s => ⟨fun hp hu => ⟨exec_adcRefenWrite_false t hp hu, exec_adcRefenWrite_true t hp hu⟩,
    fun v => ⟨exec_adcRefenWrite_partner t v, exec_adcRefenWrite_down t v⟩, fun at_ hat hen =>
      ⟨exec_refReadyExpiry_ready t hat hen, exec_refReadyExpiry_early t hat⟩⟩,
    fun t volts e s hon _ => ⟨fun r hj hr => ?round, fun j r hj he => ?injected, fun j hj he => ?ended, fun hj hr => ?idle⟩⟩
  case round =>
    replace hj : (s.advance t).hk.inj = none := hj
    replace hr : (s.advance t).hk.round = e :: r := hr
    obtain ⟨hround, htiles, hmem⟩ := hkEntry_keeps (s := s.advance t) (e := e) (tile := none) false volts
    have hfly := currentTest_flyChanges ((s.advance t).hkEntry e none false volts) (entryChannel e none)
    refine ⟨_, _, hkEntry_entryEnds (s := s.advance t) false volts, hround, exec_hkEntryDone t volts hon, fun hother hne => ?_,
      fun hother hnil => ?_, fun hne => ?_⟩
    · rw [entryDone_round_goes_on volts hj hr hne, currentTest_of_other _ hother]
      rfl
    · subst hnil
      rw [entryDone_round_ends volts hj hr, currentTest_of_other _ hother]
      rfl
    · rw [entryDone_round_goes_on volts hj hr hne]
      simp [FlyChanges_hk hfly, FlyChanges_mem hfly, FlyChanges_tiles hfly, htiles, hmem]
  case injected =>
    replace hj : (s.advance t).hk.inj = some j := hj
    refine ⟨_, _, hkEntry_entryEnds (s := s.advance t) true volts, exec_hkEntryDone t volts hon, fun hother => ?_⟩
    rw [entryDone_injected volts hj he, currentTest_of_other _ hother]
    rfl
  case ended => rw [exec_hkEntryDone t volts hon, entryDone_injected_over (s := s.advance t) volts hj he]; rfl
  case idle => rw [exec_hkEntryDone t volts hon, entryDone_idle (s := s.advance t) volts hj hr]

section
variable (t : Time) {s : State}

/-! Rounds: HK_ROUND_DUE. -/

/-- The state at a due time, with the next one. -/
def withDue (s : State) (t next : Time) : State := (s.advance t).modHk fun h => { h with due := next }

/-- A round falls due. The next due time is named, not written out: comparing states by unfolding must not compute with it. -/
theorem exec_hkRoundDue_due (hon : s.hk.on = true) (hdue : s.hk.due ≤ max s.time t) : ∃ next,
    next = s.hk.due + s.hk.period * 100000 ∧ exec (.hkRoundDue t) s =
      if (withDue s t next).hk.waiting then .next ((withDue s t next).bump .hkRoundSkipCnt)
      else if !(withDue s t next).hk.round.isEmpty then
        .next (((withDue s t next).bump .hkRoundLateCnt).modHk fun h => { h with waiting := true })
      else .next (((withDue s t next).modHk fun h => { h with waiting := true }).startWaiting) := by
  have hnow : ¬ (!s.hk.on || decide (max s.time t < s.hk.due)) = true := by
    rw [hon, decide_eq_false (Nat.not_lt.mpr hdue)]
    decide
  have hcount : withDue s t (s.hk.due + s.hk.period * 100000)
      = (s.advance t).modHk fun h => { h with due := h.due + h.period * 100000 } := by
    simp only [withDue, State.modHk, advance_hk]
  refine ⟨_, rfl, ?_⟩
  rw [hcount]
  exact if_neg hnow

section
variable (hon : s.hk.on = true) (hdue : s.hk.due ≤ max s.time t)
include hon hdue

theorem exec_hkRoundDue_starts (hr : s.hk.round = []) (hw : s.hk.waiting = false) (hj : s.hk.inj = none)
    (hc : s.hk.newCfg = false) : exec (.hkRoundDue t) s = .next { s.advance t with
      hk := { s.hk with due := s.hk.due + s.hk.period * 100000, round := s.hk.regular } } := by
  obtain ⟨next, hnext, hx⟩ := exec_hkRoundDue_due t hon hdue
  have start := startWaiting_starts (s := (withDue s t next).modHk fun h => { h with waiting := true }) rfl hr hj hc
  rw [hx, start, ← hnext]
  simp [hw, hr, withDue, State.modHk]

theorem exec_hkRoundDue_waits (hr : s.hk.round ≠ []) (hw : s.hk.waiting = false) : ∃ s', exec (.hkRoundDue t) s = .next s'
    ∧ s'.hk = { s.hk with due := s.hk.due + s.hk.period * 100000, waiting := true } := by
  obtain ⟨next, hnext, hx⟩ := exec_hkRoundDue_due t hon hdue
  rw [hx, ← hnext]
  exact ⟨((withDue s t next).bump .hkRoundLateCnt).modHk fun h => { h with waiting := true }, by simp [hw, hr, withDue], rfl⟩

theorem exec_hkRoundDue_skipped (hw : s.hk.waiting = true) : ∃ s', exec (.hkRoundDue t) s = .next s'
    ∧ s'.hk = { s.hk with due := s.hk.due + s.hk.period * 100000 } := by
  obtain ⟨next, hnext, hx⟩ := exec_hkRoundDue_due t hon hdue
  rw [hx, ← hnext]
  exact ⟨(withDue s t next).bump .hkRoundSkipCnt, by simp [hw, withDue], rfl⟩
end

/-! Injected triggers of the host: HK_INJ_FIRE_WRITE. -/

theorem inRange_hkInjFire (v : BitVec 4) : Param.inRange false .hkInjFire 0 v.toNat = decide (v.toNat < 8 ∨ v = 15) := by
  revert v
  decide

/-- The trigger tile that a value names: 15 names none. -/
def firedTile (v : BitVec 4) : Option Nat := if v = 15 then none else some v.toNat

theorem exec_hkInjFireWrite_bad {v : BitVec 4} (h8 : 8 ≤ v.toNat) (h15 : v ≠ 15) :
    exec (.hkInjFireWrite t v) s = .next { s.advance t with wstatus := .badParam } := by
  have hbad : Param.inRange false .hkInjFire 0 v.toNat = false := by
    rw [inRange_hkInjFire, decide_eq_false (not_or.mpr ⟨Nat.not_lt.mpr h8, h15⟩)]
  exact congrArg _ (if_neg (Bool.eq_false_iff.mp hbad))

theorem exec_hkInjFireWrite_good {v : BitVec 4} (h : v.toNat < 8 ∨ v = 15) : exec (.hkInjFireWrite t v) s =
    .next ((s.advance t).writeAcross (Param.hkInjFire.id 0) v.toNat fun u => u.injTrigger 3 (firedTile v)) := by
  have hgood : Param.inRange false .hkInjFire 0 v.toNat = true := by rw [inRange_hkInjFire, decide_eq_true h]
  have htile : firedTile v = if v.toNat = 15 then none else some v.toNat := by simp only [firedTile, BitVec.toNat_eq]; rfl
  rw [htile]
  exact congrArg _ (if_pos hgood)

theorem exec_hkInjFireWrite_down {v : BitVec 4} (h : v.toNat < 8 ∨ v = 15) (hd : s.fdieUp = false) :
    exec (.hkInjFireWrite t v) s = .next { s.advance t with wstatus := .failedFault } := by
  rw [exec_hkInjFireWrite_good t h, writeAcross_down (s := s.advance t) _ _ _ hd]

theorem exec_hkInjFireWrite_up {v : BitVec 4} (hon : s.hk.on = true) (h : v.toNat < 8 ∨ v = 15) (hu : s.fdieUp = true) :
    ∃ s', exec (.hkInjFireWrite t v) s = .next s' ∧ s'.wstatus = .done ∧ s'.mem = s.mem ∧ s'.frames = s.frames
      ∧ (bitOf s.hk.trig 3 = true → s.hk.inj = none → injectedEntries s.hk.injected (firedTile v) ≠ [] →
          s'.hk = { s.hk with
            inj := some { entries := injectedEntries s.hk.injected (firedTile v), tile := firedTile v, start := max s.time t
                          source := 3 } })
      ∧ (bitOf s.hk.trig 3 = false ∨ (s.hk.inj = none ∧ injectedEntries s.hk.injected (firedTile v) = []) → s'.hk = s.hk) := by
  let u := (s.advance t).valueAcross (Param.hkInjFire.id 0) v.toNat
  have hk : u.hk = s.hk := sendAcross_hk _ _ _
  obtain ⟨hmem, hframes⟩ := injTrigger_keeps u 3 (firedTile v)
  refine ⟨{ u.injTrigger 3 (firedTile v) with wstatus := .done }, ?_, rfl, hmem.trans (sendAcross_mem _ _ _),
    hframes.trans (sendAcross_frames _ _ _), fun htrig hj he => ?starts, ?stays⟩
  · rw [exec_hkInjFireWrite_good t h, writeAcross_up (s := s.advance t) _ _ _ hu]
  case starts =>
    rw [injTrigger_starts (hk ▸ hon) (hk ▸ htrig) (hk ▸ hj) (hk ▸ he)]
    simp [u, State.valueAcross]
  case stays =>
    rintro (htrig | ⟨hj, he⟩)
    · rw [injTrigger_disabled (hk ▸ htrig), hk]
    · rw [injTrigger_skips (hk ▸ hj) (hk ▸ he), hk]

/-! The C-die's sensors: C_DIE_SENSOR_MEASURE. -/

theorem exec_cDieSensorMeasure_across (vals : List Nat) (hon : s.hk.on = true) (h : s.links.gln ≠ .down) :
    exec (.cDieSensorMeasure t vals) s = .next ((s.advance t).sendAcross .cf (.sensors ((vals.take 8).map (min 4095)))) := by
  show execCDieSensorMeasure t vals s = _
  simp [execCDieSensorMeasure, hon, h]

theorem exec_cDieSensorMeasure_alone (vals : List Nat) (hon : s.hk.on = true) (h : s.links.gln = .down) :
    exec (.cDieSensorMeasure t vals) s = .next ((s.advance t).thermalReading
      (((List.range 8).filter fun i => !s.sensorBroken (6 + i) && i < vals.length).map fun i =>
        (6 + i, min 4095 (vals.getD i 0)))) := by
  show execCDieSensorMeasure t vals s = _
  have broken (i : Nat) : (s.advance t).sensorBroken i = s.sensorBroken i := rfl
  simp [execCDieSensorMeasure, hon, h, broken]

/-! The result queue: HK_Q_EN_WRITE and HK_QUEUE_READ. -/

theorem exec_hkQEnWrite (s : State) (v : Bool) : exec (.hkQEnWrite t v) s
    = .next ((s.advance t).writeShared (Param.hkQEn.id 0) (if v then 1 else 0) fun u => u.writeQEn (if v then 1 else 0)) := rfl

theorem exec_hkQEnWrite_partner (v : Bool) (h : s.isPartner = true) :
    exec (.hkQEnWrite t v) s = .next { s.advance t with wstatus := .notPermitted } :=
  (exec_hkQEnWrite t s v).trans (congrArg _ (writeShared_partner (s := s.advance t) _ _ _ h))

theorem exec_hkQEnWrite_down (v : Bool) (h : s.isPartner = false) (hd : s.fdieUp = false) :
    exec (.hkQEnWrite t v) s = .next { s.advance t with wstatus := .failedFault } :=
  (exec_hkQEnWrite t s v).trans (congrArg _ (writeShared_down (s := s.advance t) _ _ _ h hd))

theorem exec_hkQEnWrite_up (v : Bool) (h : s.isPartner = false) (hu : s.fdieUp = true) :
    ∃ s', exec (.hkQEnWrite t v) s = .next s' ∧ s'.hk = (if v then s.hk else { s.hk with queue := [] }) ∧ s'.wstatus = .done
      ∧ s'.mem = s.mem := by
  refine ⟨_, (exec_hkQEnWrite t s v).trans (congrArg _ (writeShared_up (s := s.advance t) _ _ _ h hu)), ?_⟩
  cases v <;> simp [State.writeQEn, State.valueAcross]

section
variable {x : Ctx}

theorem exec_hkQueueRead_refused (h : s.isAuth x = false ∨ s.streamControl x = false) :
    exec (.hkQueueRead t x) s = .next { s.advance t with wstatus := .notPermitted } := by
  have hno : (!(s.isAuth x && s.streamControl x)) = true := by
    obtain h | h := h <;> simp [h]
  exact if_pos hno

/-- A permitted read goes on to the guyline. -/
theorem exec_hkQueueRead_permitted (ha : s.isAuth x = true) (hs : s.streamControl x = true) : exec (.hkQueueRead t x) s =
    if !s.fdieUp then .next { s.advance t with wstatus := .failedFault }
    else
      let r := ((s.advance t).sendAcross .cf (.values [(Param.hkQueue.id 0, 0)])).popQueue
      let u := r.2.sendAcross .fc (.values [(Param.hkQueue.id 0, BitVec.ofNat 32 r.1)])
      .next { u with wstatus := .done, out := u.out ++ [.busRead x (BitVec.ofNat 32 r.1)] } := by
  have hyes : ¬ (!(s.isAuth x && s.streamControl x)) = true := by simp [ha, hs]
  exact if_neg hyes

theorem exec_hkQueueRead_down (ha : s.isAuth x = true) (hs : s.streamControl x = true) (hd : s.fdieUp = false) :
    exec (.hkQueueRead t x) s = .next { s.advance t with wstatus := .failedFault } := by
  simp [exec_hkQueueRead_permitted t ha hs, hd]

theorem popQueue_cons {w : Nat} {r : List Nat} (hq : s.hk.queue = w :: r) :
    s.popQueue = (w, s.modHk fun h => { h with queue := r }) := by
  simp only [State.popQueue, hq]

theorem exec_hkQueueRead_word (ha : s.isAuth x = true) (hs : s.streamControl x = true) (hu : s.fdieUp = true) {w : Nat}
    {r : List Nat} (hq : s.hk.queue = w :: r) : exec (.hkQueueRead t x) s = .next
      { ((s.advance t).sendAcross .cf (.values [(Param.hkQueue.id 0, 0)])).sendAcross .fc
          (.values [(Param.hkQueue.id 0, BitVec.ofNat 32 w)]) with
        hk := { s.hk with queue := r }, out := s.out ++ [.busRead x (BitVec.ofNat 32 w)], wstatus := .done } := by
  have hpop := popQueue_cons (s := (s.advance t).sendAcross .cf (.values [(Param.hkQueue.id 0, 0)])) (by simpa using hq)
  rw [exec_hkQueueRead_permitted t ha hs, hu, hpop]
  simp only [sendAcross_modHk]
  simp [State.modHk]

theorem exec_hkQueueRead_empty (ha : s.isAuth x = true) (hs : s.streamControl x = true) (hu : s.fdieUp = true)
    (hq : s.hk.queue = []) : exec (.hkQueueRead t x) s = .next
      { ((s.advance t).sendAcross .cf (.values [(Param.hkQueue.id 0, 0)])).sendAcross .fc
          (.values [(Param.hkQueue.id 0, 0xFFFFFFFF)]) with
        out := s.out ++ [.busRead x 0xFFFFFFFF], wstatus := .done } := by
  simp [exec_hkQueueRead_permitted t ha hs, hu, State.popQueue, hq]
end
end

/-- Settles O17: each command by the cases of its outcome. -/
theorem housekeepingRoundsAndQueue : Obligations.HousekeepingRoundsAndQueue := by
  intro t s hon
  refine ⟨fun hdue => ⟨exec_hkRoundDue_starts t hon hdue, exec_hkRoundDue_waits t hon hdue, exec_hkRoundDue_skipped t hon hdue⟩,
    fun v => ⟨exec_hkInjFireWrite_bad t, exec_hkInjFireWrite_down t, exec_hkInjFireWrite_up t hon⟩,
    fun vals => ⟨exec_cDieSensorMeasure_across t vals hon, exec_cDieSensorMeasure_alone t vals hon⟩,
    fun v => ⟨exec_hkQEnWrite_up t v, exec_hkQEnWrite_partner t v, exec_hkQEnWrite_down t v⟩,
    fun x => ⟨fun ha hs hu => ⟨fun w r hq => exec_hkQueueRead_word t ha hs hu hq, exec_hkQueueRead_empty t ha hs hu⟩,
      exec_hkQueueRead_down t, exec_hkQueueRead_refused t⟩⟩

end Sys2Proof.HousekeepingProofs
end

section
/-!
SUPPORT. What the operations of the flysheet do to the drift records, one law for each operation (R150, R151, R163, Table 5.5).
-/
namespace Sys2Proof.FlysheetProofs
open Sys2Proof.Machine Sys2Proof.Laws Sys2Proof.HousekeepingProofs

/-! Reading a drift record. -/

theorem dr_eq_of_drift_eq {s s' : State} (h : s'.drift = s.drift) (u : Tile) : s'.dr u = s.dr u := by
  simp only [State.dr, h]

@[simp] theorem dr_advance (s : State) (t : Time) (u : Tile) : (s.advance t).dr u = s.dr u := rfl

theorem dr_of_modify_same {s s' : State} {u : Tile} {f : Drift → Drift} (h : s'.drift = s.drift.modify u.val f)
    (hu : u.val < s.drift.length) : s'.dr u = f (s.dr u) := by
  simp [State.dr, h, hu]

theorem dr_of_modify_other {s s' : State} {u v : Tile} {f : Drift → Drift} (h : s'.drift = s.drift.modify u.val f)
    (hv : v ≠ u) : s'.dr v = s.dr v := by
  have hne : u.val ≠ v.val := fun e => hv (Fin.ext e.symm)
  simp [State.dr, h, hne]

theorem dr_modDrift_same {s : State} {u : Tile} (f : Drift → Drift) (hu : u.val < s.drift.length) :
    (s.modDrift u f).dr u = f (s.dr u) := dr_of_modify_same rfl hu

/-- Changes of a record agree that do the same to the record as it stands. -/
theorem drift_modify_congr {s : State} {u : Tile} {f g : Drift → Drift} (h : f (s.dr u) = g (s.dr u)) :
    s.drift.modify u.val f = s.drift.modify u.val g := by
  refine List.ext_getElem? fun i => ?_
  rw [List.getElem?_modify, List.getElem?_modify]
  by_cases hi : u.val = i
  · subst hi
    simp only [State.dr, List.getD_eq_getElem?_getD] at h
    cases hk : s.drift[u.val]? with
    | none => rfl
    | some k => simpa [hk] using h
  · simp [hi]

theorem modDrift_congr {s : State} {u : Tile} {f g : Drift → Drift} (h : f (s.dr u) = g (s.dr u)) :
    s.modDrift u f = s.modDrift u g := by
  simp only [State.modDrift, drift_modify_congr h]

/-- A change that leaves the record as it stands leaves the state. -/
theorem modDrift_eq_self {s : State} {u : Tile} {f : Drift → Drift} (h : f (s.dr u) = s.dr u) : s.modDrift u f = s := by
  rw [modDrift_congr (g := id) h, State.modDrift, List.modify_id]

/-! What tells of a fault or an abort leaves the drift records. -/

@[simp] theorem bumpHalf_drift (s : State) (p : Param) (i half n : Nat) : (s.bumpHalf p i half n).drift = s.drift := by
  simp only [State.bumpHalf, apply_ite State.drift, setPar_drift, ite_self]

@[simp] theorem bumpHalf_links (s : State) (p : Param) (i half n : Nat) : (s.bumpHalf p i half n).links = s.links := by
  simp only [State.bumpHalf, apply_ite State.links, setPar_links, ite_self]

@[simp] theorem sendMessage_drift (s : State) (d : LinkDir) (cls : Nat) (msg : Bytes) :
    (s.sendMessage d cls msg).drift = s.drift := by rw [sendMessage_eq]

@[simp] theorem sendMessage_raised (s : State) (d : LinkDir) (cls : Nat) (msg : Bytes) :
    (s.sendMessage d cls msg).links.raised = s.links.raised := by
  unfold State.sendMessage State.pump
  split <;> cases d <;> rfl

@[simp] theorem raise0_fc_drift (s : State) (code detail cause : Nat) : (s.raise0 .fc code detail cause).drift = s.drift := by
  simp only [State.raise0, sendMessage_drift, perfEvent_drift]

/-- An event of the F-die joins the events raised, under the next number of its wire (R50). -/
theorem raise0_fc_raised (s : State) (code detail cause : Nat) :
    (s.raise0 .fc code detail cause).links.raised = s.links.raised ++ [(.fc, s.links.numFC, code, detail, cause)] := by
  simp only [State.raise0, sendMessage_raised, perfEvent_links]

@[simp] theorem flyEnded_drift (s : State) (u : Tile) (e : FlyEnd) : (s.flyEnded u e).drift = s.drift := by
  unfold State.flyEnded State.flyEndedFor
  rw [Reports_drift (completeWhere_reports _ _)]

@[simp] theorem devEvent_drift (s : State) (code : Nat) (detail : Bytes) : (s.devEvent code detail).drift = s.drift :=
  Reports_drift (devEvent_reports s code detail)

/-! The end of a cycle. -/

/-- The record of a tile after its cycle, if one runs, has ended. -/
def cycleEnded (k : Drift) : Drift :=
  if k.cycle.isSome then { k with cycle := none, step := .isOpen, edge := false } else k

@[simp] theorem cycleEnded_cycle (k : Drift) : (cycleEnded k).cycle = none := by
  unfold cycleEnded
  split <;> simp_all
@[simp] theorem cycleEnded_drive (k : Drift) : (cycleEnded k).drive = k.drive := by simp only [cycleEnded, apply_ite, ite_self]
@[simp] theorem cycleEnded_inFault (k : Drift) : (cycleEnded k).inFault = k.inFault := by
  simp only [cycleEnded, apply_ite, ite_self]

theorem endCycle_drift (s : State) (u : Tile) (e : FlyEnd) : (s.endCycle u e).drift = s.drift.modify u.val cycleEnded := by
  unfold State.endCycle
  split
  next hrun =>
    rw [flyEnded_drift]
    exact drift_modify_congr (by simp [cycleEnded, hrun])
  next hidle =>
    have hkeep : cycleEnded (s.dr u) = id (s.dr u) := by simp [cycleEnded, hidle]
    rw [drift_modify_congr hkeep, List.modify_id]

theorem endCycle_idle {s : State} {u : Tile} (e : FlyEnd) (h : (s.dr u).cycle = none) : s.endCycle u e = s := by
  simp [State.endCycle, h]

/-! The drive (R150, R369). -/

/-- The record of a tile after its drive. -/
def driven (s : State) (d : Drive) (at_ : Time) (len : Nat) (k : Drift) : Drift :=
  if s.clk.pfw then { k with pulseHeld := some len }
  else { k with drive := if s.thm.shutdown then .off else d, pulseAt := at_, pulseEnd := at_ + len, pulseHeld := none }

section
variable (s : State) (d : Drive) (at_ : Time) (len : Nat) (k : Drift)
@[simp] theorem driven_inFault : (driven s d at_ len k).inFault = k.inFault := by simp only [driven, apply_ite, ite_self]
@[simp] theorem driven_cause : (driven s d at_ len k).cause = k.cause := by simp only [driven, apply_ite, ite_self]
@[simp] theorem driven_step : (driven s d at_ len k).step = k.step := by simp only [driven, apply_ite, ite_self]
@[simp] theorem driven_cycle : (driven s d at_ len k).cycle = k.cycle := by simp only [driven, apply_ite, ite_self]
@[simp] theorem driven_stale : (driven s d at_ len k).stale = k.stale := by simp only [driven, apply_ite, ite_self]
end

theorem driven_of_powered {s : State} (hpfw : s.clk.pfw = false) (hthm : s.thm.shutdown = false) (d : Drive) (at_ : Time)
    (len : Nat) (k : Drift) :
    driven s d at_ len k = { k with drive := d, pulseAt := at_, pulseEnd := at_ + len, pulseHeld := none } := by
  simp [driven, hpfw, hthm]

theorem driven_congr {s s' : State} (hclk : s'.clk = s.clk) (hthm : s'.thm = s.thm) : driven s' = driven s := by
  funext d at_ len k
  simp only [driven, hclk, hthm]

theorem drive_drift (s : State) (u : Tile) (d : Drive) (at_ : Time) (len : Nat) :
    (s.drive u d at_ len).drift = s.drift.modify u.val (driven s d at_ len) := by
  unfold State.drive
  split
  next hpfw => exact drift_modify_congr (by simp [driven, hpfw])
  next hpfw =>
    simp only [modDrift_drift, sendAcross_drift]
    exact drift_modify_congr (by simp [driven, hpfw])

/-! What a fault or an abort leaves alone (FlyChanges). -/

theorem FlyChanges_frames {s s' : State} (h : FlyChanges s s') : s'.frames = s.frames := by rw [h]
theorem FlyChanges_clk {s s' : State} (h : FlyChanges s s') : s'.clk = s.clk := by rw [h]
theorem FlyChanges_thm {s s' : State} (h : FlyChanges s s') : s'.thm = s.thm := by rw [h]

/-! Faults (R163, R165). -/

/-- The record of a tile in fault. -/
def faultMarked (cause : Nat) (k : Drift) : Drift :=
  { k with inFault := true, step := .fault, cause, stale := .untilOpen, openWait := false }

/-- The part of a fault that is common to all causes: the cycle ends, the tile is marked, and the event is raised. -/
def faultRaised (s : State) (u : Tile) (cause : Nat) : State :=
  (((s.endCycle u .faulted).modDrift u (faultMarked cause)).bumpHalf .flyEvtCnt u 1 1).raise0 .fc 2 u cause

theorem faultRaised_flyChanges (s : State) (u : Tile) (cause : Nat) : FlyChanges s (faultRaised s u cause) :=
  flyChanges_trans (flyChanges_trans (flyChanges_trans (endCycle_flyChanges s u .faulted) (modDrift_flyChanges _ _ _))
    (bumpHalf_flyChanges _ _ _ _ _)) (raise0_fc_flyChanges _ _ _ _)

theorem faultRaised_drift (s : State) (u : Tile) (cause : Nat) :
    (faultRaised s u cause).drift = s.drift.modify u.val (faultMarked cause ∘ cycleEnded) := by
  simp [faultRaised, endCycle_drift, List.modify_modify_eq]

theorem faultRaised_raised {s : State} {u : Tile} (cause : Nat) (h : (s.dr u).cycle = none) :
    (faultRaised s u cause).links.raised = s.links.raised ++ [(.fc, s.links.numFC, 2, u.val, cause)] := by
  simp [faultRaised, endCycle_idle _ h, raise0_fc_raised]

section
variable {s : State} {u : Tile} (at_ : Time)

/-- Faults of the causes that leave the drive as it is. -/
theorem flyFault_undriven {cause : Nat} (h : (s.dr u).inFault = false) (h2 : cause ≠ 2) (h4 : cause ≠ 4) :
    s.flyFault u cause at_ = faultRaised s u cause := by
  simp only [State.flyFault, h, if_neg h2, if_neg h4]
  rfl

/-- A flag that does not close is driven open again. -/
theorem flyFault_close (h : (s.dr u).inFault = false) :
    s.flyFault u 2 at_ = (faultRaised s u 2).drive u .isOpen at_ (s.pulseOf u) := by
  simp only [State.flyFault, h]
  rfl

theorem flyFault_close_drift (h : (s.dr u).inFault = false) : (s.flyFault u 2 at_).drift
    = s.drift.modify u.val (driven s .isOpen at_ (s.pulseOf u) ∘ faultMarked 2 ∘ cycleEnded) := by
  have hf := faultRaised_flyChanges s u 2
  rw [flyFault_close at_ h, drive_drift, faultRaised_drift, List.modify_modify_eq,
    driven_congr (FlyChanges_clk hf) (FlyChanges_thm hf)]
end

/-! Aborts (R163, Table 5.5). -/

/-- The record of a tile whose cycle is aborted with an open pulse. -/
def abortMarked (cause : Nat) (k : Drift) : Drift := { k with cause, stale := .untilOpen, openWait := true }

/-- An abort because no reference pixel is left, up to its open pulse. -/
def abortRaised (s : State) (u : Tile) : State :=
  (((s.endCycle u .aborted).modDrift u (abortMarked 10)).bumpHalf .flyEvtCnt u 1 1).devEvent 0x0601
    (leBytes 1 u ++ leBytes 1 10)

theorem abortRaised_flyChanges (s : State) (u : Tile) : FlyChanges s (abortRaised s u) :=
  flyChanges_trans (flyChanges_trans (flyChanges_trans (endCycle_flyChanges s u .aborted) (modDrift_flyChanges _ _ _))
    (bumpHalf_flyChanges _ _ _ _ _)) (flyChanges_of_reports (devEvent_reports _ _ _))

theorem abortRaised_drift (s : State) (u : Tile) :
    (abortRaised s u).drift = s.drift.modify u.val (abortMarked 10 ∘ cycleEnded) := by
  simp [abortRaised, endCycle_drift, List.modify_modify_eq]

section
variable {s : State} {u : Tile} (at_ : Time) (h : (s.dr u).cycle.isSome = true)
include h

theorem flyAbort_noPixels : s.flyAbort u 10 at_ = (abortRaised s u).drive u .isOpen at_ (s.pulseOf u) := by
  simp only [State.flyAbort, h]
  rfl

theorem flyAbort_noPixels_drift : (s.flyAbort u 10 at_).drift
    = s.drift.modify u.val (driven (abortRaised s u) .isOpen at_ (s.pulseOf u) ∘ abortMarked 10 ∘ cycleEnded) := by
  rw [flyAbort_noPixels at_ h, drive_drift, abortRaised_drift, List.modify_modify_eq]

theorem flyAbort_noPixels_mem : (s.flyAbort u 10 at_).mem = s.mem := by
  rw [flyAbort_noPixels at_ h]
  exact FlyChanges_mem (flyChanges_trans (abortRaised_flyChanges s u) (drive_flyChanges _ _ _ _ _))
end

/-! The level of FLY_POS (R151). -/

/-- A trigger changes the housekeeping converter, the count of what it drops, and the counter units. -/
theorem injTrigger_eq (s : State) (source : Nat) (tile : Option Nat) : s.injTrigger source tile = { s with
    hk := (s.injTrigger source tile).hk, regs := (s.injTrigger source tile).regs, perf := (s.injTrigger source tile).perf } := by
  unfold State.injTrigger
  simp only
  split
  · rfl
  · split
    · rfl
    · rfl
    · rw [perfEvent_eq]
      split <;> rfl

@[simp] theorem injTrigger_drift (s : State) (source : Nat) (tile : Option Nat) : (s.injTrigger source tile).drift = s.drift := by
  rw [injTrigger_eq]
@[simp] theorem injTrigger_links (s : State) (source : Nat) (tile : Option Nat) : (s.injTrigger source tile).links = s.links := by
  rw [injTrigger_eq]
@[simp] theorem injTrigger_pair (s : State) (source : Nat) (tile : Option Nat) : (s.injTrigger source tile).pair = s.pair := by
  rw [injTrigger_eq]

/-- A write of a value other than the reset value leaves every other parameter; it needs no canonical form of the register file. -/
theorem par_setPar_other {s : State} {p q : Param} {i j v : Nat} (hne : q.id j ≠ p.id i)
    (hv : BitVec.ofNat 32 v ≠ BitVec.ofNat 32 (p.reset i)) : (s.setPar p i v).par q j = s.par q j := by
  have hget : keyGet (putReg s.regs p i v) (q.id j) = keyGet s.regs (q.id j) := by
    simp only [putReg, if_neg hv]
    split
    · rfl
    · rw [keyGet_keyPut, if_neg hne]
  simp only [State.par, setPar_regs, hget]

/-- A count of dropped triggers leaves the settings of a flysheet. -/
theorem bump_hkInjDrop_par_flyCfg (s : State) (u : Tile) : (s.bump .hkInjDrop).par .flyCfg u = s.par .flyCfg u := by
  refine par_setPar_other (by decide +revert) fun hzero => ?_
  have hpos : 0 < satAdd (2 ^ Param.hkInjDrop.row.width - 1) (s.par .hkInjDrop) 1
      ∧ satAdd (2 ^ Param.hkInjDrop.row.width - 1) (s.par .hkInjDrop) 1 < 2 ^ 32 := by
    have htop : 2 ^ Param.hkInjDrop.row.width - 1 = 65535 := rfl
    rw [htop, satAdd]
    split <;> omega
  have h := congrArg BitVec.toNat hzero
  rw [BitVec.toNat_ofNat, Nat.mod_eq_of_lt hpos.2] at h
  exact absurd (h.trans rfl) (Nat.ne_of_gt hpos.1)

theorem injTrigger_par_flyCfg (s : State) (source : Nat) (tile : Option Nat) (u : Tile) :
    (s.injTrigger source tile).par .flyCfg u = s.par .flyCfg u := by
  unfold State.injTrigger
  simp only
  split
  · rfl
  · split
    · rfl
    · rfl
    · have hcounted : ((s.bump .hkInjDrop).perfEvent 1 0x14).par .flyCfg u = s.par .flyCfg u :=
        (par_eq_of_regs_eq (perfEvent_regs _ _ _ _) _ _).trans (bump_hkInjDrop_par_flyCfg s u)
      split
      · exact hcounted
      · exact hcounted

end Sys2Proof.FlysheetProofs
end

section
/-!
The statement about the events of the flysheet, assembled from the laws of its events.
-/
namespace Sys2Proof.FlysheetProofs
open Sys2Proof.Machine Sys2Proof.Laws Sys2Proof.HousekeepingProofs

/-! An accepted level of FLY_POS (R151). -/

/-- The state in which an accepted level is judged. -/
def levelNoted (s : State) (u : Tile) (level : Bool) : State :=
  (s.modDrift u fun k => { k with pos := some level }).injTrigger 0 (some u.val)

theorem levelNoted_drift (s : State) (u : Tile) (level : Bool) :
    (levelNoted s u level).drift = s.drift.modify u.val fun k => { k with pos := some level } := by
  simp only [levelNoted, injTrigger_drift, modDrift_drift]

theorem levelNoted_keeps (s : State) (u : Tile) (level : Bool) :
    (levelNoted s u level).mem = s.mem ∧ (levelNoted s u level).frames = s.frames :=
  injTrigger_keeps _ _ _

section
variable {s : State} {u : Tile} {level : Bool} {ts : Time}

theorem posAccept_ignored (h : s.flyEn u = false ∨ (s.dr u).pos = some level) : s.posAccept u level ts = s := by
  obtain h | h := h <;> simp [State.posAccept, h]

section
variable (hu : u.val < s.drift.length)
include hu

theorem levelNoted_dr : (levelNoted s u level).dr u = { s.dr u with pos := some level } :=
  dr_of_modify_same (levelNoted_drift s u level) hu

theorem levelNoted_showsClosed (hlevel : level ≠ s.parBit .flyCfg u 1) : (levelNoted s u level).showsClosed u = true := by
  have hopen : (levelNoted s u level).parBit .flyCfg u 1 = s.parBit .flyCfg u 1 :=
    congrArg (bitOf · 1) (injTrigger_par_flyCfg _ _ _ _)
  simp [State.showsClosed, levelNoted_dr hu, hopen, hlevel]

theorem levelNoted_peerCycle : (levelNoted s u level).peerCycle u = s.peerCycle u := by
  have hpair : (levelNoted s u level).pair = s.pair := injTrigger_pair _ _ _
  simp only [State.peerCycle, State.owns, levelNoted_dr hu, hpair]

section
variable (hen : s.flyEn u = true) (hpos : (s.dr u).pos ≠ some level) (hclosed : level ≠ s.parBit .flyCfg u 1)
include hen hpos hclosed

/-- A closed edge inside the time limit of the close step (Table 5.2). -/
theorem posAccept_closeEdge (hstep : (s.dr u).step = .close) (hrun : (s.dr u).cycle ≠ none)
    (hts : ts ≤ (s.dr u).pulseAt + 40000000) :
    s.posAccept u level ts = (levelNoted s u level).modDrift u fun k => { k with edge := true } := by
  have hnoted := levelNoted_dr (level := level) hu
  have hshows := levelNoted_showsClosed hu hclosed
  simp only [levelNoted] at hnoted hshows ⊢
  simp [State.posAccept, edgeLimit, hen, hpos, hnoted, hshows, hstep, hrun, hts]

/-- A closed edge while no cycle runs is fault 5. -/
theorem posAccept_fault (hidle : (s.dr u).cycle = none) (hpeer : s.peerCycle u = false) :
    s.posAccept u level ts = (levelNoted s u level).flyFault u 5 (levelNoted s u level).time := by
  have hnoted := levelNoted_dr (level := level) hu
  have hshows := levelNoted_showsClosed hu hclosed
  have hpeer' := (levelNoted_peerCycle (level := level) hu).trans hpeer
  simp only [levelNoted] at hnoted hshows hpeer' ⊢
  simp [State.posAccept, hen, hpos, hnoted, hshows, hidle, hpeer']

theorem posAccept_closeEdge_dr (hstep : (s.dr u).step = .close) (hrun : (s.dr u).cycle ≠ none)
    (hts : ts ≤ (s.dr u).pulseAt + 40000000) :
    (s.posAccept u level ts).dr u = { s.dr u with pos := some level, edge := true }
      ∧ (s.posAccept u level ts).frames = s.frames ∧ (s.posAccept u level ts).mem = s.mem := by
  obtain ⟨hmem, hframes⟩ := levelNoted_keeps s u level
  have hlen : u.val < (levelNoted s u level).drift.length := by simpa [levelNoted_drift] using hu
  rw [posAccept_closeEdge hu hen hpos hclosed hstep hrun hts, dr_modDrift_same _ hlen, levelNoted_dr hu]
  exact ⟨rfl, hframes, hmem⟩

theorem posAccept_fault_dr (hidle : (s.dr u).cycle = none) (hok : (s.dr u).inFault = false) (hpeer : s.peerCycle u = false) :
    ((s.posAccept u level ts).dr u).inFault = true ∧ ((s.posAccept u level ts).dr u).cause = 5
      ∧ ((s.posAccept u level ts).dr u).step = .fault
      ∧ (s.posAccept u level ts).links.raised = s.links.raised ++ [(.fc, s.links.numFC, 2, u.val, 5)]
      ∧ (s.posAccept u level ts).mem = s.mem := by
  have hnoted := levelNoted_dr (level := level) hu
  have hlinks : (levelNoted s u level).links = s.links := injTrigger_links _ _ _
  have hlen : u.val < (levelNoted s u level).drift.length := by simpa [levelNoted_drift] using hu
  rw [posAccept_fault hu hen hpos hclosed hidle hpeer,
    flyFault_undriven _ (by simpa [hnoted] using hok) (by decide) (by decide),
    faultRaised_raised 5 (by simpa [hnoted] using hidle), hlinks,
    FlyChanges_mem (faultRaised_flyChanges _ _ _), (levelNoted_keeps s u level).1,
    dr_of_modify_same (faultRaised_drift _ u 5) hlen]
  exact ⟨rfl, rfl, rfl, rfl, rfl⟩
end
end

/-! The samples of FLY_POS (R151). -/

/-- The record of a tile whose pin shows a level since an instant. -/
def pinShows (level : Bool) (since : Time) (k : Drift) : Drift := { k with posPin := level, posSince := since }

theorem posChange_standing (hpin : (s.dr u).posPin = level) : s.posChange u level ts =
    if (s.dr u).posSince + 990000 ≤ s.time then s.posAccept u level (s.dr u).posSince else s :=
  if_pos hpin

/-- The pin changes, and the level before it is not accepted: it did not stand long enough, stood accepted, or the tile is off. -/
theorem posChange_turned (hpin : (s.dr u).posPin ≠ level) (hbefore : s.flyEn u = false ∨ (s.dr u).pos = some (s.dr u).posPin
      ∨ max ts (s.dr u).posSince ≤ (s.dr u).posSince + 990000) : s.posChange u level ts =
    if max ts (s.dr u).posSince + 990000 ≤ s.time then
      (s.modDrift u (pinShows level (max ts (s.dr u).posSince))).posAccept u level (max ts (s.dr u).posSince)
    else s.modDrift u (pinShows level (max ts (s.dr u).posSince)) := by
  have hkeep : (if (s.dr u).posSince + posFilter < max ts (s.dr u).posSince then s.posAccept u (s.dr u).posPin (s.dr u).posSince
      else s) = s := by
    obtain hoff | hpos | hshort := hbefore
    · rw [posAccept_ignored (.inl hoff), ite_self]
    · rw [posAccept_ignored (.inr hpos), ite_self]
    · exact if_neg (Nat.not_lt.mpr hshort)
  simp only [State.posChange, if_neg hpin, hkeep]
  rfl

/-- A level that stands for 100 samples from an instant on is accepted with that instant. -/
theorem posChange_accepts {since : Time} (hsince : ((s.dr u).posPin = level ∧ since = (s.dr u).posSince)
      ∨ ((s.dr u).posPin ≠ level ∧ since = max ts (s.dr u).posSince
        ∧ (since ≤ (s.dr u).posSince + 990000 ∨ (s.dr u).pos = some (s.dr u).posPin)))
    (hstood : since + 990000 ≤ s.time) :
    s.posChange u level ts = (s.modDrift u (pinShows level since)).posAccept u level since := by
  obtain ⟨hpin, rfl⟩ | ⟨hpin, rfl, hbefore⟩ := hsince
  · have hself : s.modDrift u (pinShows level (s.dr u).posSince) = s := modDrift_eq_self (by rw [pinShows, ← hpin])
    rw [posChange_standing hpin, if_pos hstood, hself]
  · rw [posChange_turned hpin (.inr hbefore.symm), if_pos hstood]
end

section
variable (t : Time) {u : Tile} {s : State}

/-! FLY_POS_CHANGE. -/

section
variable {level : Bool} {ts : Time}

theorem exec_flyPosChange (s : State) (u : Tile) (level : Bool) (ts : Time) :
    exec (.flyPosChange t u level ts) s = .next ((s.advance t).posChange u level ts) := rfl

theorem exec_flyPosChange_standing (hpin : (s.dr u).posPin = level)
    (h : s.flyEn u = false ∨ (s.dr u).pos = some level ∨ max s.time t < (s.dr u).posSince + 990000) :
    exec (.flyPosChange t u level ts) s = .next (s.advance t) := by
  have hnone : (s.advance t).posAccept u level (s.dr u).posSince = s.advance t ∨ max s.time t < (s.dr u).posSince + 990000 := by
    obtain hoff | hpos | hshort := h
    · exact .inl (posAccept_ignored (.inl hoff))
    · exact .inl (posAccept_ignored (.inr hpos))
    · exact .inr hshort
  rw [exec_flyPosChange, posChange_standing (s := s.advance t) hpin, dr_advance]
  obtain hnone | hshort := hnone
  · rw [hnone, ite_self]
  · exact congrArg _ (if_neg (Nat.not_le.mpr hshort))

theorem exec_flyPosChange_turned (hpin : (s.dr u).posPin ≠ level) (h : s.flyEn u = false
      ∨ ((s.dr u).pos = some (s.dr u).posPin ∨ max ts (s.dr u).posSince ≤ (s.dr u).posSince + 990000)
        ∧ max s.time t < max ts (s.dr u).posSince + 990000) :
    exec (.flyPosChange t u level ts) s
      = .next ((s.advance t).modDrift u (pinShows level (max ts (s.dr u).posSince))) := by
  rw [exec_flyPosChange, posChange_turned (s := s.advance t) hpin (h.imp_right And.left)]
  obtain hoff | ⟨-, hshort⟩ := h
  · rw [posAccept_ignored (s := (s.advance t).modDrift u _) (.inl hoff), ite_self]
    rfl
  · exact congrArg _ (if_neg (Nat.not_le.mpr hshort))

section
variable {since : Time} (hu : u.val < s.drift.length)
  (hsince : ((s.dr u).posPin = level ∧ since = (s.dr u).posSince)
    ∨ ((s.dr u).posPin ≠ level ∧ since = max ts (s.dr u).posSince
      ∧ (since ≤ (s.dr u).posSince + 990000 ∨ (s.dr u).pos = some (s.dr u).posPin)))
  (hstood : since + 990000 ≤ max s.time t) (hen : s.flyEn u = true) (hpos : (s.dr u).pos ≠ some level)
  (hclosed : level ≠ s.parBit .flyCfg u 1)
include hu hsince hstood hen hpos hclosed

theorem exec_flyPosChange_closeEdge (hstep : (s.dr u).step = .close) (hrun : (s.dr u).cycle ≠ none)
    (hts : since ≤ (s.dr u).pulseAt + 40000000) : ∃ s', exec (.flyPosChange t u level ts) s = .next s'
      ∧ (s'.dr u).edge = true ∧ (s'.dr u).pos = some level ∧ s'.frames = s.frames ∧ s'.mem = s.mem := by
  have hdr : ((s.advance t).modDrift u (pinShows level since)).dr u = pinShows level since (s.dr u) :=
    dr_modDrift_same (s := s.advance t) _ hu
  obtain ⟨hrec, hframes, hmem⟩ := posAccept_closeEdge_dr (s := (s.advance t).modDrift u (pinShows level since)) (ts := since)
    (by simpa using hu) hen (hdr ▸ hpos) hclosed (hdr ▸ hstep) (hdr ▸ hrun) (hdr ▸ hts)
  refine ⟨_, congrArg Host.Outcome.next (posChange_accepts (s := s.advance t) hsince hstood), ?_, ?_, hframes, hmem⟩
  · rw [hrec]
  · rw [hrec]

theorem exec_flyPosChange_fault (hidle : (s.dr u).cycle = none) (hok : (s.dr u).inFault = false)
    (hpeer : s.peerCycle u = false) : ∃ s', exec (.flyPosChange t u level ts) s = .next s'
      ∧ (s'.dr u).inFault = true ∧ (s'.dr u).cause = 5 ∧ (s'.dr u).step = .fault
      ∧ s'.links.raised = s.links.raised ++ [(.fc, s.links.numFC, 2, u.val, 5)] ∧ s'.mem = s.mem := by
  have hdr : ((s.advance t).modDrift u (pinShows level since)).dr u = pinShows level since (s.dr u) :=
    dr_modDrift_same (s := s.advance t) _ hu
  have hpeer' : ((s.advance t).modDrift u (pinShows level since)).peerCycle u = false := by
    rw [← hpeer]
    simp only [State.peerCycle, hdr]
    rfl
  refine ⟨_, congrArg Host.Outcome.next (posChange_accepts (s := s.advance t) hsince hstood), ?_⟩
  exact posAccept_fault_dr (s := (s.advance t).modDrift u (pinShows level since)) (ts := since)
    (by simpa using hu) hen (hdr ▸ hpos) hclosed (hdr ▸ hidle) (hdr ▸ hok) hpeer'
end
end

/-! The time limits: FLY_PULSE_END, CLOSE_TIMEOUT, OPEN_TIMEOUT, INHIBIT_WINDOW_END and FLY_TMAX_EXPIRY. -/

theorem exec_flyPulseEnd_ends (hdrive : (s.dr u).drive ≠ .off) (hend : (s.dr u).pulseEnd ≤ max s.time t) :
    exec (.flyPulseEnd t u) s = .next ((s.advance t).modDrift u fun d => { d with drive := .off }) :=
  if_pos (by simp [hdrive, hend])

theorem exec_flyPulseEnd_early (hend : max s.time t < (s.dr u).pulseEnd) :
    exec (.flyPulseEnd t u) s = .next (s.advance t) :=
  if_neg (by simp only [dr_advance, advance_time, Nat.not_le.mpr hend]; simp)

theorem exec_closeTimeout_early (h : max s.time t < (s.dr u).pulseAt + 40990000) :
    exec (.closeTimeout t u) s = .next (s.advance t) :=
  if_neg (by
    have hno : ¬ (s.dr u).pulseAt + edgeKnown ≤ max s.time t := Nat.not_le.mpr h
    simp only [dr_advance, advance_time, hno]
    simp)

theorem exec_closeTimeout_late (hstep : (s.dr u).step = .close) (hedge : (s.dr u).edge = false)
    (h : (s.dr u).pulseAt + 40990000 ≤ max s.time t) :
    exec (.closeTimeout t u) s = .next ((s.advance t).flyFault u 2 (max s.time t)) :=
  if_pos (by
    have hlate : (s.dr u).pulseAt + edgeKnown ≤ max s.time t := h
    simp [hstep, hedge, hlate])

theorem exec_closeTimeout_fault (hu : u.val < s.drift.length) (hstep : (s.dr u).step = .close) (hedge : (s.dr u).edge = false)
    (h : (s.dr u).pulseAt + 40990000 ≤ max s.time t) (hok : (s.dr u).inFault = false) :
    ∃ s', exec (.closeTimeout t u) s = .next s'
      ∧ (s'.dr u).inFault = true ∧ (s'.dr u).cause = 2 ∧ (s'.dr u).step = .fault ∧ (s'.dr u).cycle = none
      ∧ (s.clk.pfw = false → s.thm.shutdown = false →
          (s'.dr u).drive = .isOpen ∧ (s'.dr u).pulseEnd = max s.time t + s.pulseOf u)
      ∧ (∀ v : Tile, v ≠ u → s'.dr v = s.dr v) ∧ s'.frames = s.frames ∧ s'.mem = s.mem := by
  have hdrift := flyFault_close_drift (s := s.advance t) (u := u) (max s.time t) hok
  have hfly := flyFault_flyChanges (s.advance t) u 2 (max s.time t)
  refine ⟨_, exec_closeTimeout_late t hstep hedge h, ?_⟩
  rw [dr_of_modify_same hdrift hu]
  refine ⟨driven_inFault .., driven_cause .., driven_step .., ?_, fun hpfw hthm => ?_,
    fun v hv => dr_of_modify_other hdrift hv, FlyChanges_frames (s := s.advance t) hfly, FlyChanges_mem (s := s.advance t) hfly⟩
  · exact (driven_cycle ..).trans (cycleEnded_cycle (s.dr u))
  · rw [Function.comp_apply, driven_of_powered (s := s.advance t) hpfw hthm]
    exact ⟨rfl, rfl⟩

section
variable (hheld : (s.dr u).pulseHeld = none) (h : (s.dr u).pulseAt + 40990000 ≤ max s.time t)
include hheld h

/-- The time limit of an open pulse has passed. -/
theorem exec_openTimeout_late : exec (.openTimeout t u) s =
    if (s.dr u).step = .opening && !(s.dr u).edge then .next ((s.advance t).flyFault u 3 (max s.time t))
    else if (s.dr u).openWait then
      let w := (s.advance t).modDrift u fun d => { d with openWait := false }
      .next (if w.showsOpen u || !w.flyEn u then w else w.flyFault u 3 w.time)
    else .next (s.advance t) :=
  if_neg (by
    have hlate : ¬ max s.time t < (s.dr u).pulseAt + edgeKnown := Nat.not_lt.mpr h
    simp only [dr_advance, advance_time, hlate, hheld]
    simp)

theorem exec_openTimeout_fault (hu : u.val < s.drift.length) (hstep : (s.dr u).step = .opening)
    (hedge : (s.dr u).edge = false) (hok : (s.dr u).inFault = false) : ∃ s', exec (.openTimeout t u) s = .next s'
      ∧ (s'.dr u).inFault = true ∧ (s'.dr u).cause = 3 ∧ (s'.dr u).cycle = none ∧ (s'.dr u).drive = (s.dr u).drive
      ∧ s'.mem = s.mem := by
  refine ⟨faultRaised (s.advance t) u 3, ?_, ?_⟩
  · rw [exec_openTimeout_late t hheld h, flyFault_undriven (s := s.advance t) _ hok (by decide) (by decide)]
    simp [hstep, hedge]
  · rw [dr_of_modify_same (faultRaised_drift (s.advance t) u 3) hu]
    exact ⟨rfl, rfl, cycleEnded_cycle (s.dr u), cycleEnded_drive (s.dr u),
      FlyChanges_mem (s := s.advance t) (faultRaised_flyChanges _ u 3)⟩

theorem exec_openTimeout_shown (hu : u.val < s.drift.length) (hstep : (s.dr u).step ≠ .opening)
    (hwait : (s.dr u).openWait = true) (hopen : s.showsOpen u = true) :
    exec (.openTimeout t u) s = .next ((s.advance t).modDrift u fun d => { d with openWait := false }) := by
  have hshown : ((s.advance t).modDrift u fun d => { d with openWait := false }).showsOpen u = true := by
    rw [← hopen]
    simp only [State.showsOpen, dr_modDrift_same (s := s.advance t) _ hu]
    rfl
  simp [exec_openTimeout_late t hheld h, hstep, hwait, hshown]
end

theorem exec_inhibitWindowEnd {w : Inhibit} {stop : Time} (hw : (s.dr u).inhibit = some w) (hstop : w.stop = some stop) :
    exec (.inhibitWindowEnd t u) s = if stop ≤ max s.time t then
        .next ((s.advance t).modDrift u fun d => { d with inhibit := none })
      else .next (s.advance t) := by
  obtain ⟨start, stop', raised⟩ := w
  obtain rfl : stop' = some stop := hstop
  show execInhibitWindowEnd t u s = _
  simp only [execInhibitWindowEnd, dr_advance, hw, advance_time]
  rfl

/-- Where FLY_TMAX is set, the test is of the time alone. -/
theorem tmaxPassed_set (now : Time) (hset : s.par .flyTmax u ≠ 0) :
    s.tmaxPassed now u = decide ((s.dr u).lastRefTime + s.par .flyTmax u * 1000000000 ≤ now) := by
  rw [State.tmaxPassed, decide_eq_true hset, Bool.true_and]

theorem exec_flyTmaxExpiry (href : (s.dr u).hasRef = true) (hset : s.par .flyTmax u ≠ 0) : exec (.flyTmaxExpiry t u) s =
    if (s.dr u).lastRefTime + s.par .flyTmax u * 1000000000 ≤ max s.time t then
      .next ((s.advance t).modDrift u fun d => { d with tmaxDue := true })
    else .next (s.advance t) := by
  have hpassed : ((s.dr u).hasRef && (s.advance t).tmaxPassed (max s.time t) u)
      = decide ((s.dr u).lastRefTime + s.par .flyTmax u * 1000000000 ≤ max s.time t) := by
    rw [href, Bool.true_and, tmaxPassed_set (s := s.advance t) _ hset, dr_advance, par_advance]
  by_cases hle : (s.dr u).lastRefTime + s.par .flyTmax u * 1000000000 ≤ max s.time t
  · exact (if_pos (hpassed.trans (decide_eq_true hle))).trans (if_pos hle).symm
  · exact (if_neg (Bool.eq_false_iff.mp (hpassed.trans (decide_eq_false hle)))).trans (if_neg hle).symm

/-! FLYSHEET_COMPUTE_DONE (R156, R140, R141). -/

/-- A read of the bytes that were stored. -/
theorem getCells_putCells {cells : List Host.Cell} (h : cellsWf cells = true) (a : Nat) (b : Bytes) :
    getCells (putCells cells a b) a b.length = b := by
  induction b generalizing cells a with
  | nil => rfl
  | cons x r ih =>
    have hfirst : cellByte (putCells (putCell cells a x) (a + 1) r) (a + 0) = x := by
      show cellByte _ a = x
      rw [cellByte_putCells_below (putCell_wf h a x) _ _ _ (Nat.lt_succ_self a), cellByte_putCell h, if_pos rfl]
    have hrest := ih (putCell_wf h a x) (a + 1)
    simp only [getCells, List.length_cons, List.range_succ_eq_map, List.map_cons, List.map_map] at hrest ⊢
    rw [putCells, hfirst]
    refine congrArg (x :: ·) (Eq.trans (List.map_congr_left fun i _ => ?_) hrest)
    simp [Nat.add_assoc, Nat.add_comm 1]

theorem cellByte_putCells_outside {cells : List Host.Cell} (h : cellsWf cells = true) {a n : Nat} {b : Bytes}
    (hn : n < a ∨ a + b.length ≤ n) : cellByte (putCells cells a b) n = cellByte cells n :=
  hn.elim (cellByte_putCells_below h a n b) (cellByte_putCells_above h a n b)

theorem finishScreening_off {c : Cycle} (s : State) (u : Tile) (h : c.dscr = false) : s.finishScreening u c = s := by
  simp [State.finishScreening, h]

/-- The list of candidates of a completed screening. -/
def screened (s : State) (u : Tile) (c : Cycle) : List (Nat × Bool × Bool) :=
  c.candidates (s.par .defDynSigmaLim u) (s.par .defDynOfsLim u)

section
variable {c : Cycle} (hscr : c.dscr = true) (hall : c.discarded = 0)
include hscr hall

theorem finishScreening_drift (s : State) (u : Tile) : (s.finishScreening u c).drift = s.drift.modify u.val fun d =>
    { d with cands := ((screened s u c).take 4096).map (·.1), candCnt := min 4096 (screened s u c).length } := by
  have hon : (c.dscr && decide (c.discarded = 0)) = true := by simp [hscr, hall]
  simp only [State.finishScreening, if_pos hon, devEvent_drift, modDrift_drift, writeMem_drift]
  rfl

theorem finishScreening_cells (s : State) (u : Tile) : (s.finishScreening u c).mem.cells
    = putCells s.mem.cells (candAddr u) (candidateBytes u c.lastFrame c.used (screened s u c)) := by
  have hon : (c.dscr && decide (c.discarded = 0)) = true := by simp [hscr, hall]
  simp only [State.finishScreening, if_pos hon, Reports_mem (devEvent_reports _ _ _), modDrift_mem, writeMem_cells]
  rfl
end

/-- The record of a tile whose new map is complete. -/
def mapped (c : Cycle) (base : Int) (m : List (Nat × List (Int × Bool))) (k : Drift) : Drift :=
  { k with cycle := some { c with map := some m, cmNew := base } }

section
variable {c : Cycle} (hstep : (s.dr u).step = .compute) (hc : (s.dr u).cycle = some c) (hmap : c.map = none)
include hstep hc hmap

theorem exec_computeDone_noPixels (hnone : c.compute = none) :
    exec (.flysheetComputeDone t u) s = .next ((s.advance t).flyAbort u 10 (max s.time t)) := by
  show execFlysheetComputeDone t u s = _
  simp [execFlysheetComputeDone, hstep, hc, hmap, hnone]

theorem exec_computeDone_map {base : Int} {m : List (Nat × List (Int × Bool))} (hsome : c.compute = some (base, m)) :
    exec (.flysheetComputeDone t u) s = .next (((s.advance t).modDrift u (mapped c base m)).finishScreening u c) := by
  have hmod : ((s.advance t).modCycle u fun c => { c with map := some m, cmNew := base })
      = (s.advance t).modDrift u (mapped c base m) := modDrift_congr (by simp [mapped, hc])
  show execFlysheetComputeDone t u s = _
  simp only [execFlysheetComputeDone, dr_advance, hstep, hc, hmap, hsome, hmod]
  rfl

theorem exec_computeDone_abort (hu : u.val < s.drift.length) (hnone : c.compute = none) :
    ∃ s', exec (.flysheetComputeDone t u) s = .next s' ∧ (s'.dr u).cycle = none ∧ (s'.dr u).cause = 10
      ∧ (s'.dr u).stale = .untilOpen ∧ (s'.dr u).inFault = (s.dr u).inFault ∧ s'.mem = s.mem := by
  have hrun : ((s.advance t).dr u).cycle.isSome = true := by simp [hc]
  refine ⟨_, exec_computeDone_noPixels t hstep hc hmap hnone, ?_⟩
  rw [dr_of_modify_same (flyAbort_noPixels_drift (max s.time t) hrun) hu, flyAbort_noPixels_mem _ hrun]
  exact ⟨(driven_cycle ..).trans (cycleEnded_cycle (s.dr u)), driven_cause .., driven_stale ..,
    (driven_inFault ..).trans (cycleEnded_inFault (s.dr u)), rfl⟩

theorem exec_computeDone_unscreened {base : Int} {m : List (Nat × List (Int × Bool))} (hsome : c.compute = some (base, m))
    (hscr : c.dscr = false) :
    exec (.flysheetComputeDone t u) s = .next ((s.advance t).modDrift u (mapped c base m)) := by
  rw [exec_computeDone_map t hstep hc hmap hsome, finishScreening_off _ _ hscr]

theorem exec_computeDone_screened (hu : u.val < s.drift.length) {base : Int} {m : List (Nat × List (Int × Bool))}
    (hsome : c.compute = some (base, m)) (hscr : c.dscr = true) (hall : c.discarded = 0) (hwf : cellsWf s.mem.cells = true) :
    ∃ s', exec (.flysheetComputeDone t u) s = .next s' ∧ (s'.dr u).candCnt = min 4096 (screened s u c).length
      ∧ (s'.dr u).cands = ((screened s u c).take 4096).map (·.1)
      ∧ s'.readMem (candAddr u) (candidateBytes u c.lastFrame c.used (screened s u c)).length
        = candidateBytes u c.lastFrame c.used (screened s u c)
      ∧ ∀ n : Nat, n < candAddr u ∨ candAddr u + (candidateBytes u c.lastFrame c.used (screened s u c)).length ≤ n →
        cellByte s'.mem.cells n = cellByte s.mem.cells n := by
  have hdrift := finishScreening_drift hscr hall ((s.advance t).modDrift u (mapped c base m)) u
  have hcells := finishScreening_cells hscr hall ((s.advance t).modDrift u (mapped c base m)) u
  refine ⟨_, exec_computeDone_map t hstep hc hmap hsome, ?_⟩
  rw [dr_of_modify_same hdrift (by simpa using hu), State.readMem, hcells]
  exact ⟨rfl, rfl, getCells_putCells hwf _ _, fun n => cellByte_putCells_outside hwf⟩
end
end

/-- Settles O19: each event by the cases of its outcome. -/
theorem flysheetEventsAndFaults : Obligations.FlysheetEventsAndFaults := by
  intro t u s hu
  refine ⟨fun hdrive => ⟨exec_flyPulseEnd_ends t hdrive, exec_flyPulseEnd_early t⟩,
    fun level ts => ⟨exec_flyPosChange_standing t, exec_flyPosChange_turned t, fun since hsince hstood hen hpos hclosed =>
      ⟨exec_flyPosChange_closeEdge t hu hsince hstood hen hpos hclosed,
        exec_flyPosChange_fault t hu hsince hstood hen hpos hclosed⟩⟩,
    fun hstep hedge => ⟨exec_closeTimeout_early t, exec_closeTimeout_fault t hu hstep hedge⟩,
    fun hheld h => ⟨exec_openTimeout_fault t hheld h hu, exec_openTimeout_shown t hheld h hu⟩, rfl,
    fun w stop hw hstop => ⟨fun hle => ?ended, fun hlt => ?early⟩,
    fun href hset => ⟨fun hle => ?passed, fun hlt => ?pending⟩,
    fun c hstep hc hmap => ⟨exec_computeDone_abort t hstep hc hmap hu, fun b m hsome =>
      ⟨exec_computeDone_unscreened t hstep hc hmap hsome, exec_computeDone_screened t hstep hc hmap hu hsome⟩⟩⟩
  case ended => rw [exec_inhibitWindowEnd t hw hstop, if_pos hle]
  case early => rw [exec_inhibitWindowEnd t hw hstop, if_neg (Nat.not_le.mpr hlt)]
  case passed => rw [exec_flyTmaxExpiry t href hset, if_pos hle]
  case pending => rw [exec_flyTmaxExpiry t href hset, if_neg (Nat.not_le.mpr hlt)]

end Sys2Proof.FlysheetProofs
end

section
/-!
The statement about FLY_CYCLE, FLY_INHIBIT and DRIFT_STATUS, assembled from the laws of the three commands.
-/
namespace Sys2Proof.FlysheetProofs
open Sys2Proof.Machine Sys2Proof.Laws Sys2Proof.HousekeepingProofs

/-! Tile masks. -/

theorem mem_tilesIn {mask : Nat} {u : Tile} : u ∈ tilesIn mask ↔ bitOf mask u.val = true := by
  simp [tilesIn, allTiles]

theorem nodup_tilesIn (mask : Nat) : (tilesIn mask).Nodup := (List.nodup_finRange 8).filter _

@[simp] theorem bitOf_zero (i : Nat) : bitOf 0 i = false := by simp [bitOf]

@[simp] theorem tilesIn_zero : tilesIn 0 = [] := by simp [tilesIn]

theorem maskOf_map_eq_zero {α : Type} {l : List α} {f : α → Bool} (h : ∀ a ∈ l, f a = false) : maskOf (l.map f) = 0 := by
  induction l with
  | nil => rfl
  | cons a r ih =>
    simp [maskOf, h a List.mem_cons_self, ih fun b hb => h b (List.mem_cons_of_mem a hb)]

/-- No named tile is in fault. -/
theorem maskOf_faulted_eq_zero {s : State} {mask : Nat} (hok : ∀ u ∈ tilesIn mask, (s.dr u).inFault = false) :
    maskOf (allTiles.map fun u => bitOf mask u.val && (s.dr u).inFault) = 0 := by
  refine maskOf_map_eq_zero fun u _ => ?_
  by_cases hu : bitOf mask u.val = true
  · rw [hok u (mem_tilesIn.mpr hu), Bool.and_false]
  · rw [Bool.eq_false_iff.mpr hu, Bool.false_and]

/-- A field of one byte. -/
theorem leAt_one_lt (b : Bytes) (o : Nat) : leAt b o 1 < 256 := by
  unfold leAt
  cases b.drop o with
  | nil => decide
  | cons a r => exact a.isLt

/-- Where the peer owns no tile of a mask, all of the mask is this device's. -/
theorem and_own {mask : Nat} (h : mask < 256) : mask &&& (255 - 0) = mask :=
  (Nat.and_two_pow_sub_one_eq_mod mask 8).trans (Nat.mod_eq_of_lt h)

/-! Operations on the tiles of a mask, one after the other. -/

theorem foldl_keeps {α : Type} {g : State → Tile → State} (φ : State → α) (h : ∀ s u, φ (g s u) = φ s) (l : List Tile)
    (s : State) : φ (l.foldl g s) = φ s := by
  induction l generalizing s with
  | nil => rfl
  | cons a r ih => exact (ih (g s a)).trans (h s a)

/-- An operation that changes the record of its tile changes that of each tile of a list once. -/
theorem dr_foldl {g : State → Tile → State} {f : Drift → Drift} (hg : ∀ s u, (g s u).drift = s.drift.modify u.val f)
    {l : List Tile} (hl : l.Nodup) (s : State) (hlen : s.drift.length = 8) (u : Tile) :
    (l.foldl g s).dr u = if u ∈ l then f (s.dr u) else s.dr u := by
  induction l generalizing s with
  | nil => rfl
  | cons a r ih =>
    obtain ⟨hnew, hr⟩ := List.nodup_cons.mp hl
    have hrest := ih hr (g s a) (by rw [hg, List.length_modify, hlen])
    rw [List.foldl_cons, hrest]
    by_cases hua : u = a
    · subst hua
      rw [if_neg hnew, if_pos List.mem_cons_self, dr_of_modify_same (hg s u) (by omega)]
    · simp only [List.mem_cons, hua, false_or, dr_of_modify_other (hg s a) hua]

/-! Ownership and the peer of a pair stand through a command's work on the flysheets. -/

theorem peerTiles_congr {s s' : State} (h : s'.pair = s.pair) (mask : Nat) : s'.peerTiles mask = s.peerTiles mask := by
  simp only [State.peerTiles, State.owns, h]

theorem isPartner_congr {s s' : State} (h : s'.pair = s.pair) : s'.isPartner = s.isPartner := by
  simp only [State.isPartner, h]

@[simp] theorem drive_pair (s : State) (u : Tile) (d : Drive) (at_ : Time) (len : Nat) : (s.drive u d at_ len).pair = s.pair := by
  unfold State.drive
  split
  · rfl
  · simp only [modDrift_pair]
    rw [sendAcross_eq]

theorem clearFault_pair (s : State) (u : Tile) : (s.clearFault u).pair = s.pair := by
  unfold State.clearFault
  split
  · rw [drive_pair, modDrift_pair]
  · rfl

theorem requestCycle_pair (s : State) (force : Bool) (u : Tile) : (s.requestCycle force u).pair = s.pair := by
  unfold State.requestCycle
  split <;> rfl

/-- The record of a tile after a request. -/
def requested (force : Bool) (k : Drift) : Drift :=
  if k.cycle.isSome || k.inFault then k else { k with reasons := k.reasons ||| 0b10000, force := k.force || force }

theorem requestCycle_drift (s : State) (force : Bool) (u : Tile) :
    (s.requestCycle force u).drift = s.drift.modify u.val (requested force) := by
  unfold State.requestCycle
  split
  next hbusy =>
    have hkeep : requested force (s.dr u) = id (s.dr u) := if_pos hbusy
    rw [drift_modify_congr hkeep, List.modify_id]
  next hfree => exact drift_modify_congr (if_neg hfree).symm

/-! FLY_CYCLE (R162). -/

theorem command_starts {s : State} {t : Time} {x : Ctx} {tag : BitVec 11} {op : Nat} {c : Cmd}
    (h : (s.advance t).starting x tag.toNat op = some c) (act : State → Cmd → State) :
    s.command t x tag op act = act (s.advance t) c := by
  simp only [State.command, h]

/-- A request on tiles of this device alone goes to no peer. -/
theorem passCycle_own {s : State} {mask flags : Nat} (hpeer : s.peerTiles mask = 0)
    (hlead : flags = 1 → s.isPartner = false) : s.passCycle mask flags = s := by
  have hown : (s.isPartner && decide (flags = 1)) = false := by
    by_cases h : flags = 1
    · simp [hlead h]
    · simp [h]
  simp [State.passCycle, hpeer, hown]

theorem clearFaults_own {s : State} {mask flags : Nat} (x : Ctx) (c : Cmd) (hmask : mask < 256) (hpeer : s.peerTiles mask = 0)
    (hflags : flags = 2) : s.clearFaults x c mask flags = ((tilesIn mask).foldl State.clearFault s).complete x c .done := by
  have hpair : ((tilesIn mask).foldl State.clearFault s).pair = s.pair := foldl_keeps State.pair clearFault_pair _ s
  have hpass := passCycle_own (mask := mask) (flags := flags) ((peerTiles_congr hpair mask).trans hpeer) (by omega)
  have hleft (r : State) : maskOf (allTiles.map fun u => bitOf 0 u.val && (r.dr u).inFault) = 0 :=
    maskOf_map_eq_zero fun u _ => by rw [bitOf_zero, Bool.false_and]
  simp only [State.clearFaults, hpeer, and_own hmask, hpass, hleft, if_true]

section
variable {s : State} {x : Ctx} {c : Cmd}

theorem flyCycle_shape (hlen : c.payload.length = 4) (hzero : leAt c.payload 2 2 = 0) (hflags : leAt c.payload 1 1 < 4) :
    ¬ (decide (c.payload.length ≠ 4) || decide (4 ≤ leAt c.payload 1 1) || decide (leAt c.payload 2 2 ≠ 0)) = true := by
  simp [hlen, hzero, hflags]

/-- A tile without a flysheet, or off, is refused. -/
theorem flyCycle_badTile (hlen : c.payload.length = 4) (hzero : leAt c.payload 2 2 = 0) (hflags : leAt c.payload 1 1 < 4)
    (h : ∃ u ∈ tilesIn (leAt c.payload 0 1), s.flyEn u = false ∨ s.tileOn u = false) :
    s.flyCycle x c = s.complete x c .badParam := by
  have hany : ((tilesIn (leAt c.payload 0 1)).any fun u => !s.flyEn u || !s.tileOn u) = true := by simpa using h
  simp only [State.flyCycle, if_neg (flyCycle_shape hlen hzero hflags), if_pos hany]

section
variable (hready : ∀ u ∈ tilesIn (leAt c.payload 0 1), s.flyEn u = true ∧ s.tileOn u = true ∧ (s.dr u).inhibit = none)
include hready

theorem flyCycle_tilesOn : ¬ ((tilesIn (leAt c.payload 0 1)).any fun u => !s.flyEn u || !s.tileOn u) = true := by
  simp only [List.any_eq_true, not_exists, not_and]
  intro u hu
  obtain ⟨hen, hon, -⟩ := hready u hu
  simp [hen, hon]

theorem flyCycle_uninhibited : ¬ (!bitOf (leAt c.payload 1 1) 0 && (tilesIn (leAt c.payload 0 1)).any s.inhibited) = true := by
  simp only [Bool.and_eq_true, List.any_eq_true, not_and, not_exists]
  intro _ u hu
  obtain ⟨-, -, hnone⟩ := hready u hu
  simp [State.inhibited, hnone]

section
variable (hlen : c.payload.length = 4) (hzero : leAt c.payload 2 2 = 0) (hpeer : s.peerTiles (leAt c.payload 0 1) = 0)
include hlen hzero hpeer

theorem flyCycle_down (hflags : leAt c.payload 1 1 < 4) (hdown : s.fdieUp = false) (hnone : leAt c.payload 0 1 ≠ 0) :
    s.flyCycle x c = s.complete x c .failedFault := by
  simp only [State.flyCycle, if_neg (flyCycle_shape hlen hzero hflags), if_neg (flyCycle_tilesOn hready),
    if_neg (flyCycle_uninhibited hready)]
  simp [hpeer, and_own (leAt_one_lt _ _), hdown, hnone]

theorem flyCycle_clears (hup : s.fdieUp = true) (h2 : leAt c.payload 1 1 = 2) :
    s.flyCycle x c = ((tilesIn (leAt c.payload 0 1)).foldl State.clearFault s).complete x c .done := by
  have hclear : bitOf (leAt c.payload 1 1) 1 = true := by rw [h2]; rfl
  have hflags : leAt c.payload 1 1 < 4 := by omega
  simp only [State.flyCycle, if_neg (flyCycle_shape hlen hzero hflags), if_neg (flyCycle_tilesOn hready),
    if_neg (flyCycle_uninhibited hready)]
  simp [hup, hclear, clearFaults_own x c (leAt_one_lt _ _) hpeer h2]

theorem flyCycle_requests (hup : s.fdieUp = true) (h2 : leAt c.payload 1 1 < 2)
    (hlead : leAt c.payload 1 1 = 1 → s.isPartner = false) (hnone : leAt c.payload 0 1 ≠ 0)
    (hok : ∀ u ∈ tilesIn (leAt c.payload 0 1), (s.dr u).inFault = false) : s.flyCycle x c
      = ((tilesIn (leAt c.payload 0 1)).foldl (fun s u => s.requestCycle (leAt c.payload 1 1 == 1) u) s).await x c
          (.fly (leAt c.payload 0 1) 0 0 0 0) := by
  have hclear : bitOf (leAt c.payload 1 1) 1 = false := by
    rw [bitOf, Nat.div_eq_of_lt (by omega)]
    rfl
  have hforce : bitOf (leAt c.payload 1 1) 0 = (leAt c.payload 1 1 == 1) := by
    rw [bitOf, Nat.pow_zero, Nat.div_one, Nat.mod_eq_of_lt h2]
  have hpair : ((tilesIn (leAt c.payload 0 1)).foldl (fun s u => s.requestCycle (leAt c.payload 1 1 == 1) u) s).pair = s.pair :=
    foldl_keeps State.pair (fun s u => requestCycle_pair s _ u) _ s
  have hpass := passCycle_own (flags := leAt c.payload 1 1) ((peerTiles_congr hpair _).trans hpeer)
    fun h => (isPartner_congr hpair).trans (hlead h)
  have hfaulted := maskOf_faulted_eq_zero hok
  have hwaits : flyResult (.fly (leAt c.payload 0 1) 0 0 0 0) = none := by simp [flyResult, hnone.symm]
  have hgoes : ¬ (!s.fdieUp && decide (leAt c.payload 0 1 &&& (255 - s.peerTiles (leAt c.payload 0 1)) ≠ 0)) = true := by
    simp [hup]
  have hflags : leAt c.payload 1 1 < 4 := by omega
  simp only [State.flyCycle, if_neg (flyCycle_shape hlen hzero hflags), if_neg (flyCycle_tilesOn hready),
    if_neg (flyCycle_uninhibited hready), if_neg hgoes]
  simp only [hclear, Bool.false_eq_true, if_false, hforce, hpeer, and_own (leAt_one_lt _ _), hpass, hfaulted, hwaits]
end
end
end

/-- The records after the requests: those of named tiles hold HOST, the others stand. -/
theorem dr_requests {s : State} (hlen : s.drift.length = 8) (mask : Nat) (force : Bool)
    (hok : ∀ u ∈ tilesIn mask, (s.dr u).inFault = false) (x : Ctx) (c : Cmd) (w : Wait) (u : Tile) :
    let s' := ((tilesIn mask).foldl (fun s u => s.requestCycle force u) s).await x c w
    (bitOf mask u.val = true → (s.dr u).cycle = none →
      (s'.dr u).reasons.getLsbD 4 = true ∧ (s'.dr u).force = ((s.dr u).force || force))
    ∧ (bitOf mask u.val = false → s'.dr u = s.dr u) := by
  intro s'
  have hdr : s'.dr u = if u ∈ tilesIn mask then requested force (s.dr u) else s.dr u :=
    dr_foldl (fun s u => requestCycle_drift s force u) (nodup_tilesIn mask) s hlen u
  refine ⟨fun hu hidle => ?_, fun hu => ?_⟩
  · have hin := mem_tilesIn.mpr hu
    have hfree : requested force (s.dr u)
        = { s.dr u with reasons := (s.dr u).reasons ||| 0b10000, force := (s.dr u).force || force } :=
      if_neg (by simp [hidle, hok u hin])
    rw [hdr, if_pos hin, hfree]
    exact ⟨by simp, rfl⟩
  · rw [hdr, if_neg (by simp [mem_tilesIn, hu])]

/-! FLY_INHIBIT (R161, Table 5.4). -/

/-- The record of a tile with an inhibit window. -/
def windowed (w : Option Inhibit) (k : Drift) : Drift := { k with inhibit := w }

/-- Every window of a command counts from the same instant. -/
theorem foldl_windowed (w : Time → Option Inhibit) (l : List Tile) (s : State) :
    l.foldl (fun s u => s.modDrift u fun k => { k with inhibit := w s.time }) s
      = l.foldl (fun r u => r.modDrift u (windowed (w s.time))) s := by
  induction l generalizing s with
  | nil => rfl
  | cons a r ih =>
    rw [List.foldl_cons, List.foldl_cons, ih]
    rfl

section
variable {s : State} {x : Ctx} {c : Cmd} (hlen : c.payload.length = 8) (hzero : leAt c.payload 1 3 = 0) (hup : s.fdieUp = true)
include hlen hzero hup

/-- The windows are set, and the rest of the command tells of it. -/
theorem flyInhibit_reports : Reports ((tilesIn (leAt c.payload 0 1)).foldl (fun r u => r.modDrift u
      (windowed (inhibitOf s.time (leAt c.payload 4 2) (leAt c.payload 6 2)))) s) (s.flyInhibit x c) := by
  have hshape : ¬ (decide (c.payload.length ≠ 8) || decide (leAt c.payload 1 3 ≠ 0)) = true := by simp [hlen, hzero]
  have hgoes : ¬ (!s.fdieUp && decide (leAt c.payload 0 1 &&& (255 - s.peerTiles (leAt c.payload 0 1)) ≠ 0)) = true := by
    simp [hup]
  have hfold := foldl_windowed (fun now => inhibitOf now (leAt c.payload 4 2) (leAt c.payload 6 2))
    (tilesIn (leAt c.payload 0 1)) s
  simp only [State.flyInhibit, if_neg hshape, if_neg hgoes, hfold]
  generalize List.foldl _ s (tilesIn (leAt c.payload 0 1)) = r
  refine reports_trans ?_ (complete_reports _ _ _ _ _)
  split
  · exact reports_refl r
  · exact pairSend_reports r _ _

theorem flyInhibit_keeps : (s.flyInhibit x c).mem = s.mem ∧ (s.flyInhibit x c).frames = s.frames := by
  have h := flyInhibit_reports (x := x) hlen hzero hup
  exact ⟨(Reports_mem h).trans (foldl_keeps State.mem (fun s u => modDrift_mem s u _) _ s),
    (Reports_frames h).trans (foldl_keeps State.frames (fun s u => modDrift_frames s u _) _ s)⟩

theorem flyInhibit_dr (hdrift : s.drift.length = 8) (u : Tile) : (s.flyInhibit x c).dr u =
    if u ∈ tilesIn (leAt c.payload 0 1) then
      windowed (inhibitOf s.time (leAt c.payload 4 2) (leAt c.payload 6 2)) (s.dr u)
    else s.dr u := by
  rw [dr_eq_of_drift_eq (Reports_drift (flyInhibit_reports hlen hzero hup)),
    dr_foldl (fun s u => modDrift_drift s u _) (nodup_tilesIn _) s hdrift]
end

/-! DRIFT_STATUS (R177, Table 5.7). -/

@[simp] theorem leBytes_length (n v : Nat) : (leBytes n v).length = n := by
  induction n generalizing v with
  | zero => rfl
  | succ n ih => rw [leBytes, List.length_cons, ih]

theorem driftRecord_length (s : State) (u : Tile) : (s.driftRecord u).length = 32 := by
  simp [State.driftRecord]

theorem driftRecords_length (s : State) (l : List Tile) : (l.flatMap s.driftRecord).length = 32 * l.length := by
  induction l with
  | nil => rfl
  | cons u r ih => rw [List.flatMap_cons, List.length_append, driftRecord_length, ih, List.length_cons, Nat.mul_succ, Nat.add_comm]

/-- A record that fits its area in host memory is written there whole. -/
theorem writeRecord_host {s : State} {x : Ctx} {c : Cmd} {host : Nat} {data : Bytes} (hsg : c.sgAddr ≠ 0)
    (hdev : s.sgInDevice x = false) (hbus : (s.ctx x).busOff = false) (hfits : data.length ≤ host) (result : Nat) :
    s.writeRecord x c host data result
      = ({ s with out := s.out ++ [.scatter x c.tag data] } : State).complete x c .done result := by
  simp [State.writeRecord, State.sgLength, State.areaStop, State.sgWrite, State.sgWriteAt, hsg, hdev, hbus,
    Nat.not_lt.mpr hfits]

section
variable {t : Time} {x : Ctx} {tag : BitVec 11} {s : State} {c : Cmd} {sg : Nat}
  (hstart : (s.advance t).starting x tag.toNat 0x4003 = some c)
include hstart

theorem exec_driftStatus_empty (h : c.payload = []) :
    exec (.driftStatus t x tag sg) s = .next ((s.advance t).complete x c .badParam) := by
  refine congrArg Host.Outcome.next ((command_starts hstart _).trans ?_)
  simp [h]

theorem exec_driftStatus_records (h : c.payload ≠ []) (hsg : c.sgAddr ≠ 0) (hdev : s.sgInDevice x = false)
    (hbus : (s.ctx x).busOff = false) (hfits : 32 * (tilesIn (leAt c.payload 0 1)).length ≤ sg) :
    exec (.driftStatus t x tag sg) s = .next (({ s.advance t with out := s.out
      ++ [.scatter x c.tag ((tilesIn (leAt c.payload 0 1)).flatMap (s.advance t).driftRecord)] } : State).complete x c .done
        (tilesIn (leAt c.payload 0 1)).length) := by
  have hbytes : ((tilesIn (leAt c.payload 0 1)).flatMap (s.advance t).driftRecord).length ≤ sg := by
    rwa [driftRecords_length]
  refine congrArg Host.Outcome.next ((command_starts hstart _).trans ?_)
  simp only [List.isEmpty_iff, if_neg h]
  exact writeRecord_host (s := s.advance t) hsg hdev hbus hbytes _
end

/-- Settles O20: each command by the cases of its outcome. -/
theorem flysheetCommands : Obligations.FlysheetCommands := by
  intro t x tag s c hdrift
  refine ⟨fun hstart hlen hzero => ?cycle, fun hstart hlen hzero hup => ?inhibit,
    fun sg hstart => ⟨exec_driftStatus_empty hstart, exec_driftStatus_records hstart⟩⟩
  case cycle =>
    have hx : exec (.flyCycle t x tag) s = .next ((s.advance t).flyCycle x c) :=
      congrArg Host.Outcome.next (command_starts hstart _)
    rw [hx]
    refine ⟨fun hflags hbad => ?_, fun hpeer hready => ⟨fun hdown hflags hnone => ?_, fun hup hflags => ?_,
      fun hup hflags hlead hnone hok => ⟨_, ?_, rfl, ?_⟩⟩⟩
    · rw [flyCycle_badTile (s := s.advance t) hlen hzero hflags hbad]
    · rw [flyCycle_down (s := s.advance t) hready hlen hzero hpeer hflags hdown hnone]
    · rw [flyCycle_clears (s := s.advance t) hready hlen hzero hpeer hup hflags]
    · rw [flyCycle_requests (s := s.advance t) hready hlen hzero hpeer hup hflags hlead hnone hok]
    · exact dr_requests (s := s.advance t) hdrift _ _ hok x c _
  case inhibit =>
    obtain ⟨hmem, hframes⟩ := flyInhibit_keeps (s := s.advance t) (x := x) hlen hzero hup
    refine ⟨_, congrArg Host.Outcome.next (command_starts hstart _), hmem, hframes, fun u => ⟨fun hu => ?_, fun hu => ?_⟩⟩
    · rw [flyInhibit_dr (s := s.advance t) hlen hzero hup hdrift, if_neg (by simp [mem_tilesIn, hu]), dr_advance]
    · rw [flyInhibit_dr (s := s.advance t) hlen hzero hup hdrift, if_pos (mem_tilesIn.mpr hu)]
      rfl

end Sys2Proof.FlysheetProofs
end

section
/-!
SUPPORT. What the nodes in the pipeline and the sampler change (R406 to R409), and that the pipeline leaves what the length of a replay
result rests on (R250).
-/
namespace Sys2Proof.ReplayProofs
open Sys2Proof.Machine Sys2Proof.Laws Sys2Proof.HousekeepingProofs Sys2Proof.FlysheetProofs

/-! The register file: one count of at least one, and one write, beside the other parameters. -/

theorem par_bump_other {s : State} {p q : Param} {i j n : Nat} (hne : q.id j ≠ p.id i) (hn : 0 < n) (hreset : p.reset i = 0)
    (hwidth : 0 < p.row.width ∧ p.row.width ≤ 32) : (s.bump p i n).par q j = s.par q j := by
  refine par_setPar_other hne fun hzero => ?_
  have hone : 1 < 2 ^ p.row.width := Nat.one_lt_two_pow (Nat.ne_of_gt hwidth.1)
  have htop : 2 ^ p.row.width ≤ 2 ^ 32 := Nat.pow_le_pow_right (by decide) hwidth.2
  have hvalue := congrArg BitVec.toNat hzero
  rw [hreset, BitVec.toNat_ofNat, BitVec.toNat_ofNat, satAdd] at hvalue
  split at hvalue <;> omega

theorem keyGet_keyDel_listed {β : Type} {l : List (Nat × β)} {a b : Nat} {v : β} (h : keyGet l a = some v) (hne : a ≠ b) :
    keyGet (keyDel l b) a = some v := by
  induction l with
  | nil => exact h
  | cons e r ih =>
    obtain ⟨k, w⟩ := e
    by_cases hk : k = a
    · subst hk
      rw [keyGet, if_pos rfl] at h
      rw [keyDel, if_neg hne]
      split <;> rw [keyGet, if_pos rfl, h]
    · have hlt : ¬ a < k := fun hlt => by simp [keyGet, hk, hlt] at h
      have hrest : keyGet r a = some v := by simpa only [keyGet, if_neg hk, if_neg hlt] using h
      rw [keyDel]
      split
      · exact hrest
      · split <;> simp only [keyGet, if_neg hk, if_neg hlt, hrest, ih hrest]

/-- A write leaves every other parameter that is listed; it needs no canonical form of the register file. -/
theorem keyGet_putReg_listed {regs : List (Nat × Word)} {a : Nat} {w : Word} (h : keyGet regs a = some w) {p : Param} {i : Nat}
    (hne : a ≠ p.id i) (v : Nat) : keyGet (putReg regs p i v) a = some w := by
  unfold putReg
  split
  · exact h
  · split
    · exact keyGet_keyDel_listed h hne
    · rw [keyGet_keyPut, if_neg hne, h]

/-! Nodes that enter and leave. -/

/-- What nodes that enter and leave may change, and nothing else: the counter units with the sampler, the count of lost sample records,
and the supply of free values. -/
structure NodesMove (s s' : State) : Prop where
  frame : s' = { s with regs := s'.regs, perf := s'.perf, free := s'.free }
  par (q : Param) (j : Nat) : q.id j ≠ Param.sampleLostCnt.id 0 → s'.par q j = s.par q j

theorem nodesMove_refl (s : State) : NodesMove s s := ⟨rfl, fun _ _ _ => rfl⟩

theorem nodesMove_trans {a b c : State} (h : NodesMove a b) (k : NodesMove b c) : NodesMove a c where
  frame := by rw [k.frame, h.frame]
  par q j hne := (k.par q j hne).trans (h.par q j hne)

theorem nodesMove_foldl {α : Type} {f : State → α → State} (h : ∀ s a, NodesMove s (f s a)) (l : List α) (s : State) :
    NodesMove s (l.foldl f s) :=
  List.foldlRecOn l f (nodesMove_refl s) fun _ hb a _ => nodesMove_trans hb (h _ a)

theorem withPerf_nodesMove (s : State) (p : Perf) : NodesMove s { s with perf := p } := ⟨rfl, fun _ _ _ => rfl⟩
theorem takeFree_nodesMove (s : State) (w : Nat) : NodesMove s (s.takeFree w).2 := ⟨rfl, fun _ _ _ => rfl⟩
theorem modLane_nodesMove (s : State) (t : Nat) (f : Lane → Lane) : NodesMove s (s.modLane t f) := withPerf_nodesMove s _
theorem modPipe_nodesMove (s : State) (num t : Nat) (g : Nat → Nat) : NodesMove s (s.modPipe num t g) := withPerf_nodesMove s _

theorem perfEventAt_nodesMove (s : State) (at_ : Time) (u code n : Nat) : NodesMove s (s.perfEventAt at_ u code n) := by
  unfold State.perfEventAt
  simp only
  split
  · exact withPerf_nodesMove s _
  · exact nodesMove_refl s

theorem bump_sampleLostCnt_nodesMove (s : State) : NodesMove s (s.bump .sampleLostCnt) :=
  ⟨rfl, fun _ _ hne => par_bump_other hne Nat.one_pos rfl (by decide)⟩

theorem addSample_nodesMove (s : State) (r : Bytes) : NodesMove s (s.addSample r) := by
  unfold State.addSample
  split
  · exact withPerf_nodesMove s _
  · split
    · exact nodesMove_trans (withPerf_nodesMove s _) (bump_sampleLostCnt_nodesMove _)
    · exact bump_sampleLostCnt_nodesMove s

theorem freeOffsets_nodesMove (s : State) (from_ n : Nat) : NodesMove s (s.freeOffsets from_ n).2 := by
  induction n generalizing s from_ with
  | zero => exact nodesMove_refl s
  | succ n ih => exact nodesMove_trans (takeFree_nodesMove s 26) (ih _ _)

theorem pointsOf_nodesMove (s : State) (gone : Bool) (e : TaggedNode) : NodesMove s (s.pointsOf gone e).2 := by
  unfold State.pointsOf
  cases gone
  · exact nodesMove_refl s
  · exact takeFree_nodesMove s 8

theorem pixelSample_nodesMove (s : State) (gone : Bool) (e : TaggedNode) : NodesMove s (s.pixelSample gone e) := by
  have hoffsets := nodesMove_trans (takeFree_nodesMove s 32) (nodesMove_trans (pointsOf_nodesMove (s.takeFree 32).2 gone e)
    (freeOffsets_nodesMove _ 0 ((s.takeFree 32).2.pointsOf gone e).1))
  unfold State.pixelSample
  simp only
  split
  · exact nodesMove_trans hoffsets (nodesMove_trans (takeFree_nodesMove _ 8) (addSample_nodesMove _ _))
  · exact nodesMove_trans hoffsets (addSample_nodesMove _ _)

theorem sampleStep_nodesMove (s : State) (kind : Nat) : NodesMove s (s.sampleStep kind).2 := by
  unfold State.sampleStep
  split
  · exact withPerf_nodesMove s _
  · exact nodesMove_refl s

theorem candidate_nodesMove (s : State) (e : Entering) (c : Nat) : NodesMove s (s.candidate e c) := by
  unfold State.candidate
  simp only
  refine nodesMove_trans (sampleStep_nodesMove s 1) ?_
  split
  · split
    · exact pixelSample_nodesMove _ _ _
    · exact withPerf_nodesMove _ _
  · exact nodesMove_refl _

theorem candidatesTo_nodesMove (s : State) (clock : Nat) : NodesMove s (s.candidatesTo clock) := by
  unfold State.candidatesTo
  simp only
  split
  · exact nodesMove_foldl (fun _ _ => candidate_nodesMove _ _ _) _ s
  · exact nodesMove_refl s

theorem enterUpTo_nodesMove (s : State) (at_ : Time) (e : Entering) : NodesMove s (s.enterUpTo at_ e) := by
  refine nodesMove_trans (perfEventAt_nodesMove s at_ 6 0x10 (e.upTo (clockOf at_) - e.next)) ?_
  show NodesMove _ (ite _ _ _)
  split
  · exact modLane_nodesMove _ _ _
  · exact nodesMove_trans (modLane_nodesMove _ _ _) (modPipe_nodesMove _ _ _ _)

theorem nodesTo_nodesMove (s : State) (at_ : Time) : NodesMove s (s.nodesTo at_) :=
  nodesMove_trans (candidatesTo_nodesMove s _)
    (nodesMove_trans (nodesMove_foldl (fun u e => enterUpTo_nodesMove u at_ e) _ _) (withPerf_nodesMove _ _))

theorem startRow_nodesMove (s : State) (e : Entering) : NodesMove s (s.startRow e) := by
  unfold State.startRow
  split
  · exact nodesMove_refl s
  · exact nodesMove_trans (nodesTo_nodesMove s s.time) (withPerf_nodesMove _ _)

theorem endTagged_nodesMove (s : State) (gone : Bool) (p : TaggedNode → Bool) : NodesMove s (s.endTagged gone p) :=
  nodesMove_trans (withPerf_nodesMove s _) (nodesMove_foldl (fun u e => pixelSample_nodesMove u gone e) _ _)

theorem leaveRow_nodesMove (s : State) (num t r cols : Nat) : NodesMove s (s.leaveRow num t r cols) :=
  nodesMove_trans (nodesTo_nodesMove s s.time) (nodesMove_trans (withPerf_nodesMove _ _)
    (nodesMove_trans (modLane_nodesMove _ _ _) (nodesMove_trans (modPipe_nodesMove _ _ _ _) (endTagged_nodesMove _ _ _))))

section
variable (s : State) (at_ : Time)
@[simp] theorem nodesTo_time : (s.nodesTo at_).time = s.time := by rw [(nodesTo_nodesMove s at_).frame]
@[simp] theorem nodesTo_mem : (s.nodesTo at_).mem = s.mem := by rw [(nodesTo_nodesMove s at_).frame]
@[simp] theorem nodesTo_aux : (s.nodesTo at_).aux = s.aux := by rw [(nodesTo_nodesMove s at_).frame]
@[simp] theorem nodesTo_frames : (s.nodesTo at_).frames = s.frames := by rw [(nodesTo_nodesMove s at_).frame]
@[simp] theorem nodesTo_drift : (s.nodesTo at_).drift = s.drift := by rw [(nodesTo_nodesMove s at_).frame]
end

/-! The shape of a result: the parameters and the mosaic that its length rests on (R250). -/

/-- The parameters that give the length of a result: those of the tiles' sizes, and the tap; and which tiles are enabled. -/
def shapeParams : List Param := [.tileEn, .winEn, .winRows, .actRows, .actCols, .replayCfg]

/-- None of them is a parameter that a replay frame writes on its way. -/
theorem shapeParams_apart : ∀ q ∈ shapeParams, ∀ t u : Tile, q.id t ≠ Param.pipeStageEn.id u ∧ q.id t ≠ Param.pipeSatCnt.id u
    ∧ q.id t ≠ Param.sampleLostCnt.id 0 := by decide

/-- A result has one length in both states. -/
structure SameShape (s s' : State) : Prop where
  tick : s'.tick = s.tick
  par (q : Param) (t : Tile) : q ∈ shapeParams → s'.par q t = s.par q t

theorem sameShape_refl (s : State) : SameShape s s := ⟨rfl, fun _ _ _ => rfl⟩

theorem sameShape_trans {a b c : State} (h : SameShape a b) (k : SameShape b c) : SameShape a c :=
  ⟨k.tick.trans h.tick, fun q t hq => (k.par q t hq).trans (h.par q t hq)⟩

theorem ite_sameShape {s a b : State} {c : Prop} [Decidable c] (ha : SameShape s a) (hb : SameShape s b) :
    SameShape s (if c then a else b) := by
  split
  · exact ha
  · exact hb

theorem sameShape_foldl {α : Type} {f : State → α → State} (h : ∀ s a, SameShape s (f s a)) (l : List α) (s : State) :
    SameShape s (l.foldl f s) :=
  List.foldlRecOn l f (sameShape_refl s) fun _ hb a _ => sameShape_trans hb (h _ a)

theorem NodesMove.sameShape {s s' : State} (h : NodesMove s s') : SameShape s s' where
  tick := by rw [h.frame]
  par q t hq := h.par q t (shapeParams_apart q hq t t).2.2

theorem modFrame_sameShape (s : State) (num : Nat) (f : Frame → Frame) : SameShape s (s.modFrame num f) :=
  ⟨rfl, fun _ _ _ => rfl⟩

theorem perfEvent_sameShape (s : State) (u code n : Nat) : SameShape s (s.perfEvent u code n) :=
  (perfEventAt_nodesMove s s.time u code n).sameShape

theorem bump_pipeSatCnt_sameShape (s : State) (u : Tile) {n : Nat} (hn : n ≠ 0) : SameShape s (s.bump .pipeSatCnt u n) :=
  ⟨rfl, fun q t hq => par_bump_other (shapeParams_apart q hq t u).2.1 (Nat.pos_of_ne_zero hn) rfl (by decide)⟩

/-- The drift terms of a tile are switched off (REPLAY_CFG[10]); the reset value has them on. -/
theorem setPar_driftOff_sameShape (s : State) (u : Tile) (v : Nat) : SameShape s (s.setPar .pipeStageEn u (v &&& 0b11110000111)) := by
  refine ⟨rfl, fun q t hq => par_setPar_other (shapeParams_apart q hq t u).1 fun hreset => ?_⟩
  have hbit := congrArg (BitVec.getLsbD · 3) hreset
  have hon : (BitVec.ofNat 32 0x05FF).getLsbD 3 = true := by decide
  have hoff : (BitVec.ofNat 32 (v &&& 0b11110000111)).getLsbD 3 = false := by simp
  exact absurd (hoff.symm.trans (hbit.trans hon)) (by decide)

theorem captureRow_sameShape (s : State) (num : Nat) (t : Tile) (r : Nat) (words : List Nat) :
    SameShape s (s.captureRow num t r words) := by
  unfold State.captureRow
  split
  · exact ⟨rfl, fun _ _ _ => rfl⟩
  · exact sameShape_refl s

theorem processRow_sameShape (s : State) (num : Nat) (t : Tile) (r : Nat) (words : List Nat) :
    SameShape s (s.processRow num t r words) := by
  unfold State.processRow
  split
  · exact sameShape_refl s
  next f _ =>
  simp only
  split
  · exact sameShape_refl s
  have harrived (e : Entering) (g : Frame → Frame) :
      SameShape s (((s.captureRow num t r words).startRow e).modFrame num g) :=
    sameShape_trans (captureRow_sameShape s num t r words)
      (sameShape_trans (startRow_nodesMove _ e).sameShape (modFrame_sameShape _ num g))
  have hactive (e : Entering) (g h : Frame → Frame) (n : Nat) :
      let u := (((s.captureRow num t r words).startRow e).modFrame num g).modFrame num h
      SameShape s (if n = 0 then u else (u.bump .pipeSatCnt t n).perfEvent 6 0x13 n) := by
    have hkept := sameShape_trans (harrived e g) (modFrame_sameShape _ num h)
    intro u
    split
    · exact hkept
    · exact sameShape_trans hkept (sameShape_trans (bump_pipeSatCnt_sameShape u t ‹_›) (perfEvent_sameShape _ _ _ _))
  split
  · exact sameShape_trans (harrived _ _) (sameShape_trans (leaveRow_nodesMove _ _ _ _ _).sameShape (modFrame_sameShape _ num _))
  · exact ite_sameShape (sameShape_trans (hactive _ _ _ _) (perfEvent_sameShape _ _ _ _)) (hactive _ _ _ _)

end Sys2Proof.ReplayProofs
end

section
/-!
SUPPORT. A replay frame (R249 to R251): the bytes of its result, the place it takes, and what it leaves of the live state.
-/
namespace Sys2Proof.ReplayProofs
open Sys2Proof.Machine Sys2Proof.Laws Sys2Proof.HousekeepingProofs Sys2Proof.FlysheetProofs

/-! The frame's rows pass stages 1 to 5. -/

theorem replayRows_sameShape (s : State) (off : Nat) (t : Tile) : SameShape s (s.replayRows off t) :=
  sameShape_foldl (fun u r => sameShape_trans (processRow_sameShape u replayNum t r _) (modFrame_sameShape _ _ _)) _ s

theorem runReplay_sameShape (s : State) (head : Bytes) : SameShape s (s.runReplay head) := by
  have hentered : SameShape s { s with aux := { s.aux with capture := none }, frames := [s.replayFrame head] } :=
    ⟨rfl, fun _ _ _ => rfl⟩
  exact sameShape_trans hentered (sameShape_trans
    (sameShape_foldl (fun u t => ite_sameShape (setPar_driftOff_sameShape u t _) (sameShape_refl u)) _ _)
    (sameShape_foldl (fun u t => replayRows_sameShape u s.aux.src t) _ _))

section
variable {s s' : State} (h : SameShape s s')
include h

theorem SameShape.tap : s'.replayTap = s.replayTap := by
  have hcfg : s'.par .replayCfg = s.par .replayCfg := h.par .replayCfg 0 (by decide)
  simp only [State.replayTap, State.parField, hcfg]

theorem SameShape.actCols (t : Tile) : s'.par .actCols t = s.par .actCols t := h.par _ t (by decide)

theorem SameShape.mosaicRows (t : Tile) : s'.mosaicRows t = s.mosaicRows t := by
  have hwindowed : s'.windowed t = s.windowed t := by simp only [State.windowed, h.par .winEn t (by decide)]
  rw [State.mosaicRows, hwindowed, h.par .winRows t (by decide), h.par .actRows t (by decide), State.mosaicRows]

theorem SameShape.replayTiles : s'.replayTiles = s.replayTiles :=
  List.filter_congr fun t _ => by simp only [State.tileOn, h.par .tileEn t (by decide)]

theorem SameShape.resultBytes : s'.resultBytes = s.resultBytes := by
  simp only [State.resultBytes, h.tap, h.tick, h.replayTiles, h.mosaicRows, h.actCols]
end

/-! The length of a result. -/

theorem length_flatMap_of_forall {α β : Type} {l : List α} {f : α → List β} {n : Nat} (h : ∀ a ∈ l, (f a).length = n) :
    (l.flatMap f).length = n * l.length := by
  rw [List.length_flatMap, List.map_congr_left h, List.map_const', List.sum_replicate_nat, Nat.mul_comm]

@[simp] theorem sliceB_length (o n : Nat) (b : Bytes) : (sliceB o n b).length = n := by
  simp only [sliceB, List.length_append, List.length_replicate, List.length_take]
  omega

@[simp] theorem padTo_length (n : Nat) (b : Bytes) : (padTo n b).length = n := sliceB_length 0 n b

theorem planeData_length (s : State) (off : Nat) (f : Frame) (t : Tile) :
    (s.planeData off f t).length = 4 * s.mosaicRows t * s.par .actCols t := by
  refine (length_flatMap_of_forall (n := 4 * s.par .actCols t) fun r _ => ?_).trans ?_
  · refine (length_flatMap_of_forall (n := 4) fun x _ => ?_).trans (congrArg _ List.length_range)
    split
    · exact leBytes_length 4 _
    · split <;> exact leBytes_length 4 _
  · rw [List.length_range, Nat.mul_right_comm]

theorem mosaicData_length (s : State) (px : List (Nat × Nat × OutPix)) : (s.mosaicData px).length
    = roundUp 64 ((if s.replayTap = 2 then 2 else 4) * s.tick.mosaicW) * s.tick.mosaicH :=
  (length_flatMap_of_forall fun _ _ => padTo_length _ _).trans (congrArg _ List.length_range)

/-- The mosaic's size and the tap of a result, which the taps behind stage 8 rest on. A count there may be of 0 and take a counter off
the register file, so a parameter is sure to stay only where it is listed; the tap is, for its reset value is 0. -/
structure SameMosaic (s s' : State) : Prop where
  tick : s'.tick = s.tick
  tap (w : Word) : keyGet s.regs (Param.replayCfg.id 0) = some w → keyGet s'.regs (Param.replayCfg.id 0) = some w

theorem sameMosaic_refl (s : State) : SameMosaic s s := ⟨rfl, fun _ => id⟩

theorem sameMosaic_trans {a b c : State} (h : SameMosaic a b) (k : SameMosaic b c) : SameMosaic a c :=
  ⟨k.tick.trans h.tick, fun w hw => k.tap w (h.tap w hw)⟩

theorem perfEvent_sameMosaic (s : State) (u code n : Nat) : SameMosaic s (s.perfEvent u code n) := by
  rw [perfEvent_eq]
  exact ⟨rfl, fun _ => id⟩

theorem bump_sameMosaic (s : State) {p : Param} {i : Nat} (hne : Param.replayCfg.id 0 ≠ p.id i) (n : Nat) :
    SameMosaic s (s.bump p i n) :=
  ⟨rfl, fun _ hw => keyGet_putReg_listed hw hne _⟩

theorem radMarkCnt_apart (t : Tile) : Param.replayCfg.id 0 ≠ Param.radMarkCnt.id t := by decide +revert
theorem radClampCnt_apart (t : Tile) : Param.replayCfg.id 0 ≠ Param.radClampCnt.id t := by decide +revert

theorem replayTileOut_sameMosaic (s : State) (f : Frame) (t : Tile) : SameMosaic s (s.replayTileOut f t).1 := by
  refine List.foldlRecOn (motive := fun (a : State × List (Nat × Nat × OutPix)) => SameMosaic s a.1) _ _
    (sameMosaic_refl s) fun a ha i _ => ?_
  simp only
  split
  · exact ha
  · exact sameMosaic_trans ha (sameMosaic_trans
      (sameMosaic_trans (bump_sameMosaic _ (radMarkCnt_apart t) _)
        (sameMosaic_trans (perfEvent_sameMosaic _ _ _ _) (perfEvent_sameMosaic _ _ _ _)))
      (sameMosaic_trans (perfEvent_sameMosaic _ _ _ _) (sameMosaic_trans (bump_sameMosaic _ (radClampCnt_apart t) _)
        (sameMosaic_trans (perfEvent_sameMosaic _ _ _ _) (perfEvent_sameMosaic _ _ _ _)))))

theorem replayTilesOut_sameMosaic (s : State) (f : Frame) (l : List Tile) :
    SameMosaic s (l.foldl (fun (a : State × List (Nat × Nat × OutPix)) t =>
      ((a.1.replayTileOut f t).1, a.2 ++ (a.1.replayTileOut f t).2)) (s, [])).1 :=
  List.foldlRecOn (motive := fun (a : State × List (Nat × Nat × OutPix)) => SameMosaic s a.1) _ _ (sameMosaic_refl s)
    fun _ ha t _ => sameMosaic_trans ha (replayTileOut_sameMosaic _ f t)

theorem SameMosaic.replayTap {s s' : State} (h : SameMosaic s s') (htap : ¬ s.replayTap < 2) : s'.replayTap = s.replayTap := by
  obtain ⟨w, hw⟩ : ∃ w, keyGet s.regs (Param.replayCfg.id 0) = some w := by
    cases hget : keyGet s.regs (Param.replayCfg.id 0) with
    | some w => exact ⟨w, rfl⟩
    | none =>
      have hzero : s.replayTap = bitsOf (Param.replayCfg.reset 0) 1 0 := by
        simp only [State.replayTap, State.parField, State.par, hget]
      exact absurd (hzero ▸ by decide) htap
  simp only [State.replayTap, State.parField, State.par, hw, h.tap w hw]

theorem replayTap_lt (s : State) : s.replayTap < 4 := Nat.mod_lt _ (by decide)

theorem planes_length {s r : State} (h : SameShape s r) (off : Nat) (f : Frame) (htap : s.replayTap < 2) :
    64 + (s.replayTiles.flatMap fun t => r.planeData off f t).length = s.resultBytes := by
  simp only [List.length_flatMap, planeData_length, h.mosaicRows, h.actCols]
  unfold State.resultBytes
  split <;> omega

theorem mosaic_length {s r : State} (htick : r.tick = s.tick) (hsame : r.replayTap = s.replayTap) (htap : ¬ s.replayTap < 2)
    (px : List (Nat × Nat × OutPix)) : 64 + (r.mosaicData px).length = s.resultBytes := by
  have hcases : s.replayTap = 2 ∨ s.replayTap = 3 := by have := replayTap_lt s; omega
  rw [mosaicData_length, hsame, htick, State.resultBytes]
  obtain h | h := hcases <;> simp [h]

theorem resultHeader_length (s : State) (frame : Bytes) (abandoned : Bool) (f : Frame) :
    (s.resultHeader frame abandoned f).length = 64 := padTo_length 64 _

theorem padTo_take {k n : Nat} {b : Bytes} (hn : k ≤ n) (hb : k ≤ b.length) : (padTo n b).take k = b.take k := by
  have hlength : k ≤ (b.take n).length := List.length_take ▸ Nat.le_min.mpr ⟨hn, hb⟩
  rw [padTo, sliceB, List.drop_zero, List.take_append_of_le_length hlength, List.take_take, Nat.min_eq_left hn]

/-- The first bytes of a result's header: the frame number of its source, the tap, and 0 for a frame that was not abandoned. -/
theorem resultHeader_take (s : State) {frame : Bytes} (hframe : frame.length = 6) (f : Frame) :
    (s.resultHeader frame false f).take 8 = frame ++ leBytes 1 s.replayTap ++ [0] := by
  rw [State.resultHeader, padTo_take (by decide) (by simp [hframe]; omega)]
  exact List.take_left' (by simp [hframe])

/-- The header and the data of a result (R250). -/
theorem replayResult_parts (s : State) : ∃ (f : Frame) (data : Bytes),
    s.replayResult.2 = s.resultHeader (sliceB 6 6 (s.readMem (replayAddr + s.aux.src) 64)) false f ++ data
      ∧ 64 + data.length = s.resultBytes := by
  have hrun := runReplay_sameShape s (s.readMem (replayAddr + s.aux.src) 64)
  unfold State.replayResult
  simp only
  split
  case isTrue htap => exact ⟨_, _, rfl, planes_length hrun _ _ htap⟩
  case isFalse htap =>
    have hout (f : Frame) :=
      replayTilesOut_sameMosaic (s.runReplay (s.readMem (replayAddr + s.aux.src) 64)) f s.replayTiles
    exact ⟨_, _, rfl,
      mosaic_length ((hout _).tick.trans hrun.tick) (((hout _).replayTap (hrun.tap ▸ htap)).trans hrun.tap) htap _⟩

theorem replayResult_length (s : State) : s.replayResult.2.length = s.resultBytes := by
  obtain ⟨f, data, hresult, hlength⟩ := replayResult_parts s
  rw [hresult, List.length_append, resultHeader_length, hlength]

theorem replayResult_take (s : State) :
    s.replayResult.2.take 8 = sliceB 6 6 (s.readMem (replayAddr + s.aux.src) 64) ++ leBytes 1 s.replayTap ++ [0] := by
  obtain ⟨f, data, hresult, -⟩ := replayResult_parts s
  rw [hresult, List.take_append_of_le_length (by rw [resultHeader_length]; decide)]
  exact resultHeader_take s (sliceB_length 6 6 _) f

/-! The end of a replay frame and of the operation. -/

/-- Between two frames an operation ends at once: no node is in the pipeline. -/
theorem endReplay_reports {s : State} (hidle : s.aux.busySince = none) (cause : Nat) :
    Reports { s with aux := { s.aux with op := 0, cause, stopReq := false, busySince := none, capture := none } }
      (s.endReplay cause) := by
  simp only [State.endReplay, hidle]
  exact devEvent_reports _ _ _

section
variable {s : State} (hidle : s.aux.busySince = none) (cause : Nat)
include hidle

theorem endReplay_aux : (s.endReplay cause).aux = { s.aux with op := 0, cause, stopReq := false, busySince := none, capture := none } :=
  Reports_aux (endReplay_reports hidle cause)

theorem endReplay_mem : (s.endReplay cause).mem = s.mem := (Reports_mem (endReplay_reports hidle cause) :)
end

/-- The operation's part of the state with the next place, behind a frame. -/
def movedOn (s : State) : Aux :=
  { s.aux with done := s.aux.done + 1, src := s.aux.src + s.sourceBytes, dst := s.aux.dst + s.resultBytes, busySince := none }

/-- Behind a frame the place moves on, or the operation ends. -/
theorem nextReplay_reports (s : State) : ∃ aux : Aux, Reports { s with aux } s.nextReplay
    ∧ aux.done = s.aux.done + 1 ∧ aux.busySince = none := by
  have hends (cause : Nat) := endReplay_reports (s := { s with aux := movedOn s }) rfl cause
  unfold State.nextReplay
  simp only
  split
  · exact ⟨_, hends 0, rfl, rfl⟩
  · split
    · exact ⟨_, hends 1, rfl, rfl⟩
    · exact ⟨movedOn s, reports_refl _, rfl, rfl⟩

/-- What the end of a replay frame may change, and nothing else: memory and the operation, the counter units with the sampler, the
counts of the register file, and what tells the hosts. -/
def ReplayMoves (s s' : State) : Prop :=
  s' = { s with
    aux := s'.aux, mem := s'.mem, regs := s'.regs, perf := s'.perf, free := s'.free, ctxs := s'.ctxs, gens := s'.gens
    pegs := s'.pegs, out := s'.out, links := s'.links, pair := s'.pair, dbg := s'.dbg }

theorem replayMoves_trans {a b c : State} (h : ReplayMoves a b) (k : ReplayMoves b c) : ReplayMoves a c := by
  unfold ReplayMoves at *
  rw [k, h]

theorem replayMoves_of_reports {s s' : State} (h : Reports s s') : ReplayMoves s s' := by
  unfold Reports at h
  unfold ReplayMoves
  rw [h]

theorem replayMoves_of_nodesMove {s s' : State} (h : NodesMove s s') : ReplayMoves s s' := by
  unfold ReplayMoves
  rw [h.frame]

theorem nextReplay_replayMoves (s : State) : ReplayMoves s s.nextReplay := by
  obtain ⟨aux, hrest, -, -⟩ := nextReplay_reports s
  exact replayMoves_trans (b := { s with aux }) rfl (replayMoves_of_reports hrest)

theorem nextReplay_mem (s : State) : s.nextReplay.mem = s.mem := by
  obtain ⟨aux, hrest, -, -⟩ := nextReplay_reports s
  exact (Reports_mem hrest :)

theorem nextReplay_aux (s : State) : s.nextReplay.aux.done = s.aux.done + 1 ∧ s.nextReplay.aux.busySince = none := by
  obtain ⟨aux, hrest, hdone, hidle⟩ := nextReplay_reports s
  rw [Reports_aux hrest]
  exact ⟨hdone, hidle⟩

/-- The state with the result of the source frame at the present place in memory, and with what its nodes counted. -/
def resultStored (s : State) : State :=
  ({ s with
    perf := s.replayResult.1.perf
    regs := s.replayTiles.foldl (fun g (t : Tile) => putReg g .pipeStageEn t.val (s.par .pipeStageEn t)) s.replayResult.1.regs
    free := s.replayResult.1.free } : State).writeMem (replayAddr + s.aux.dst) s.replayResult.2

theorem resultStored_replayMoves (s : State) : ReplayMoves s (resultStored s) := rfl

theorem finishReplay_eq (s : State) :
    s.finishReplay = ((resultStored (s.nodesTo s.time)).perfEvent 10 0x13).nextReplay := rfl

theorem finishReplay_replayMoves (s : State) : ReplayMoves s s.finishReplay :=
  finishReplay_eq s ▸ replayMoves_trans (replayMoves_of_nodesMove (nodesTo_nodesMove s s.time))
    (replayMoves_trans (resultStored_replayMoves _)
      (replayMoves_trans (replayMoves_of_reports (perfEvent_reports _ 10 0x13 1)) (nextReplay_replayMoves _)))

/-- What a replay frame leaves of the live state. -/
theorem finishReplay_live (s : State) : s.finishReplay.drift = s.drift ∧ s.finishReplay.frames = s.frames
    ∧ s.finishReplay.tiles = s.tiles ∧ s.finishReplay.tick = s.tick ∧ s.finishReplay.history = s.history
    ∧ s.finishReplay.held = s.held ∧ s.finishReplay.outs = s.outs ∧ s.finishReplay.hk = s.hk := by
  rw [finishReplay_replayMoves s]
  exact ⟨rfl, rfl, rfl, rfl, rfl, rfl, rfl, rfl⟩

theorem finishReplay_cells (s : State) : s.finishReplay.mem.cells
    = putCells s.mem.cells (replayAddr + s.aux.dst) (s.nodesTo s.time).replayResult.2 := by
  rw [finishReplay_eq, nextReplay_mem, perfEvent_mem, resultStored, writeMem_cells, nodesTo_mem, nodesTo_aux]

theorem finishReplay_aux (s : State) :
    s.finishReplay.aux.done = s.aux.done + 1 ∧ s.finishReplay.aux.busySince = none := by
  have hplace : ((resultStored (s.nodesTo s.time)).perfEvent 10 0x13).aux = s.aux :=
    (Reports_aux (perfEvent_reports _ _ _ _)).trans (nodesTo_aux s s.time)
  rw [finishReplay_eq, ← hplace]
  exact nextReplay_aux _

end Sys2Proof.ReplayProofs
end

section
/-!
PROOF. The auxiliary path, replay and capture (R241, R242, R249 to R251, R365).
-/
namespace Sys2Proof.ReplayProofs
open Sys2Proof.Machine Sys2Proof.Laws Sys2Proof.HousekeepingProofs Sys2Proof.FlysheetProofs

/-! The auxiliary path (R241, R242). -/

theorem auxHeld_false_iff (s : State) : s.auxHeld = false ↔ s.thm.stage = 0 ∧ s.thm.shutdown = false := by
  simp [State.auxHeld]

theorem auxHeld_iff (s : State) : s.auxHeld = true ↔ s.thm.stage ≠ 0 ∨ s.thm.shutdown = true := by
  simp [State.auxHeld]

/-- The outcome of a register write: the state that it leaves, and its status. -/
def answered (r : State × Status) : Host.Outcome State Fault Refusal := .next { r.1 with wstatus := r.2 }

section
variable {s : State} {x : Ctx} {cam v : Nat} (hsc : s.streamControl x = true) (hin : Param.inRange false .auxSubmit cam v = true)
  (hcam : s.parBit .auxCamCfg cam 8 = true)
include hsc hin hcam

theorem auxSubmit_queues (hheld : s.auxHeld = false) (hslot : s.auxSlotState cam (v % 2) = 0) : s.auxSubmit x cam v
    = ({ s with aux := { s.aux with
          queue := s.aux.queue ++ [{ cam, slot := v % 2, seq := v / 65536, subAt := s.time }] } }, .done) := by
  simp [State.auxSubmit, hsc, hin, hcam, hheld, hslot]

theorem auxSubmit_busy (h : s.auxHeld = true ∨ s.auxSlotState cam (v % 2) ≠ 0) : s.auxSubmit x cam v = (s, .busy) := by
  have hbusy : (s.auxHeld || s.auxSlotState cam (v % 2) != 0) = true := by simpa using h
  simp only [State.auxSubmit, hsc, hin, hcam, hbusy]
  rfl
end

section
variable (t : Time) {s : State} {j : AuxJob} {r : List AuxJob} (hq : s.aux.queue = j :: r)
include hq

theorem exec_auxProcessStart_starts (hjob : s.aux.job = none) (hcap : s.aux.capture = none) (hheld : s.auxHeld = false) :
    ∃ s', exec (.auxProcessStart t) s = .next s' ∧ s'.aux.queue = r ∧ s'.aux.cams = s.aux.cams
    ∧ (∃ cfg, s'.aux.job = some (j, s.auxOutSlot j.cam, s.readMem (auxTableAddr j.cam) 32768, cfg)) ∧ s'.mem = s.mem
    ∧ s'.frames = s.frames := by
  have hfree : ¬ ((s.advance t).aux.job.isSome || (s.advance t).auxHeld || (s.advance t).aux.capture.isSome) = true := by
    rw [advance_aux, hjob, hcap, show (s.advance t).auxHeld = false from hheld]
    decide
  have hx : exec (.auxProcessStart t) s = execAuxProcessStart t s := rfl
  simp only [hx, execAuxProcessStart, advance_aux, hq]
  exact ⟨_, if_neg hfree, rfl, rfl, ⟨_, rfl⟩, rfl, rfl⟩

theorem exec_auxProcessStart_held (hheld : s.auxHeld = true) : exec (.auxProcessStart t) s = .next (s.advance t) := by
  have hstop : ((s.advance t).aux.job.isSome || (s.advance t).auxHeld || (s.advance t).aux.capture.isSome) = true := by
    rw [show (s.advance t).auxHeld = true from hheld, Bool.or_true, Bool.true_or]
  show execAuxProcessStart t s = _
  simp only [execAuxProcessStart, advance_aux, hq]
  exact if_pos hstop
end

/-- The image of a job whose input is in memory. -/
def imageOf (s : State) (j : AuxJob) (table : Bytes) (cfg : List Nat) : Bytes :=
  (auxInput cfg table (s.readMem (auxInAddr j.cam j.slot) (6 * mib))).output

/-- The state with a job's image in its output slot, which is the camera's newest. -/
def imageStored (s : State) (j : AuxJob) (slot : Nat) (image : Bytes) : State :=
  { s.writeMem (auxOutAddr j.cam slot) image with
    aux := { s.aux with
      job := none, cams := s.aux.cams.set j.cam { newest := slot, valid := true, seq := j.seq, subAt := j.subAt } } }

theorem exec_auxFrameDone (t : Time) {s : State} {j : AuxJob} {slot : Nat} {table : Bytes} {cfg : List Nat}
    (hjob : s.aux.job = some (j, slot, table, cfg)) : ∃ s', exec (.auxFrameDone t) s = .next s'
      ∧ Reports (imageStored (s.advance t) j slot (imageOf s j table cfg)) s' := by
  have hx : exec (.auxFrameDone t) s = execAuxFrameDone t s := rfl
  simp only [hx, execAuxFrameDone, advance_aux, hjob]
  exact ⟨_, rfl, reports_trans (perfEvent_reports _ _ _ _)
    (reports_trans (perfEvent_reports _ _ _ _) (devEvent_reports _ _ _))⟩

theorem exec_auxFrameDone_stores (t : Time) {s : State} {j : AuxJob} {slot : Nat} {table : Bytes} {cfg : List Nat}
    (hjob : s.aux.job = some (j, slot, table, cfg)) (hwf : cellsWf s.mem.cells = true) :
    ∃ s', exec (.auxFrameDone t) s = .next s' ∧ s'.aux.job = none ∧ s'.aux.queue = s.aux.queue
      ∧ (j.cam < s.aux.cams.length → s'.auxCam j.cam = { newest := slot, valid := true, seq := j.seq, subAt := j.subAt })
      ∧ s'.readMem (auxOutAddr j.cam slot) (imageOf s j table cfg).length = imageOf s j table cfg ∧ s'.frames = s.frames
      ∧ ∀ n : Nat, n < auxOutAddr j.cam slot ∨ auxOutAddr j.cam slot + (imageOf s j table cfg).length ≤ n →
        cellByte s'.mem.cells n = cellByte s.mem.cells n := by
  obtain ⟨s', hx, hrest⟩ := exec_auxFrameDone t hjob
  have haux := Reports_aux hrest
  have hcells : s'.mem.cells = putCells s.mem.cells (auxOutAddr j.cam slot) (imageOf s j table cfg) :=
    congrArg Mem.cells (Reports_mem hrest)
  refine ⟨s', hx, by rw [haux]; rfl, by rw [haux]; rfl, fun hcam => ?_, ?_, (Reports_frames hrest :), fun n hn => ?_⟩
  · rw [State.auxCam, haux]
    simp [imageStored, hcam]
  · rw [State.readMem, hcells]
    exact getCells_putCells hwf _ _
  · rw [hcells]
    exact cellByte_putCells_outside hwf hn

/-! REPLAY_CTL (R249, R365). -/

/-- The state with a replay (1) or a capture (2) begun. -/
def begun (s : State) (op : Nat) : State :=
  { s with aux := { s.aux with
    op, done := 0, cause := 0, stopReq := false, busySince := none, capture := none
    src := 256 * s.par .replaySrc, dst := 256 * s.par .replayDst } }

section
variable {s : State} {x : Ctx} (hsc : s.streamControl x = true)
include hsc

section
variable (hop : s.aux.op = 0)
include hop

theorem replayCtl_captures (hroom : 256 * s.par .replayDst + s.replayCount * s.captureBytes ≤ s.replaySize) :
    s.replayCtl x 2 = (begun s 2, .done) := by
  simp [State.replayCtl, hsc, hop, hroom, begun]

theorem replayCtl_capture_noRoom (hroom : s.replaySize < 256 * s.par .replayDst + s.replayCount * s.captureBytes) :
    s.replayCtl x 2 = (s, .badParam) := by
  simp [State.replayCtl, hsc, hop, Nat.not_le.mpr hroom]

section
variable (hhead : s.headerOk (256 * s.par .replaySrc) = true)
  (hsrc : 256 * s.par .replaySrc + s.replayCount * s.sourceBytes ≤ s.replaySize)
  (hdst : 256 * s.par .replayDst + s.replayCount * s.resultBytes ≤ s.replaySize)
include hhead hsrc hdst

theorem replayCtl_replay_fits : s.replayCtl x 1
    = if s.thm.shutdown || s.anyStream && s.pBudget < replayBudget then (s, .busy) else (begun s 1, .done) := by
  simp [State.replayCtl, hsc, hop, hhead, hsrc, hdst, begun]

theorem replayCtl_replays (hshut : s.thm.shutdown = false) (hbudget : s.anyStream = false ∨ replayBudget ≤ s.pBudget) :
    s.replayCtl x 1 = (begun s 1, .done) := by
  rw [replayCtl_replay_fits hsc hop hhead hsrc hdst]
  refine if_neg ?_
  rw [hshut]
  obtain h | h := hbudget <;> simp [h]

theorem replayCtl_replay_held (h : s.thm.shutdown = true ∨ s.anyStream = true ∧ s.pBudget < replayBudget) :
    s.replayCtl x 1 = (s, .busy) := by
  rw [replayCtl_replay_fits hsc hop hhead hsrc hdst]
  exact if_pos (by simpa using h)
end
end

section
variable (hop : s.aux.op ≠ 0)
include hop

theorem replayCtl_running {v : Nat} (hv : v ≠ 3) : s.replayCtl x v = (s, .busy) := by
  simp [State.replayCtl, hsc, hop, hv]

theorem replayCtl_stops (hidle : s.aux.busySince = none) (hcap : s.aux.capture = none) :
    s.replayCtl x 3 = (s.endReplay 1, .done) := by
  simp [State.replayCtl, hsc, hop, hidle, hcap]

theorem replayCtl_stops_later (h : s.aux.busySince ≠ none ∨ s.aux.capture ≠ none) :
    s.replayCtl x 3 = ({ s with aux := { s.aux with stopReq := true } }, .done) := by
  have hbusy : ¬ (s.aux.busySince.isNone && s.aux.capture.isNone) = true := by
    rw [Bool.and_eq_true, Option.isNone_iff_eq_none, Option.isNone_iff_eq_none]
    exact fun hnone => h.elim (· hnone.1) (· hnone.2)
  simp only [State.replayCtl, hsc, hop, hbusy]
  rfl
end
end

/-! A replay frame (R249 to R251). -/

section
variable (s : State) (t : Time)
@[simp] theorem headerOk_advance (off : Nat) : (s.advance t).headerOk off = s.headerOk off := rfl
@[simp] theorem anyStream_advance : (s.advance t).anyStream = s.anyStream := rfl
@[simp] theorem reading_advance : (s.advance t).reading = s.reading := rfl
@[simp] theorem pBudget_advance : (s.advance t).pBudget = s.pBudget := rfl
@[simp] theorem replayTime_advance : (s.advance t).replayTime = s.replayTime := rfl
@[simp] theorem cutOf_advance (ts : Time) : (s.advance t).cutOf ts = s.cutOf ts := rfl
end

section
variable (t : Time) {s : State}

theorem exec_replayStop_ends {x : Ctx} (hsc : s.streamControl x = true) (hop : s.aux.op ≠ 0) (hidle : s.aux.busySince = none)
    (hcap : s.aux.capture = none) : ∃ s', exec (.replayStop t x) s = .next s'
      ∧ s'.aux = { s.aux with op := 0, cause := 1, stopReq := false } ∧ s'.mem = s.mem ∧ s'.wstatus = .done := by
  have hwrite := congrArg answered (replayCtl_stops (s := s.advance t) hsc hop hidle hcap)
  refine ⟨_, hwrite, (endReplay_aux (s := s.advance t) hidle 1).trans ?_, endReplay_mem (s := s.advance t) hidle 1, rfl⟩
  simp [hidle, hcap]

/-- The next replay frame starts, at the present place. -/
theorem enterReplay_advance : (s.advance t).enterReplay.aux = { s.aux with busySince := some (max s.time t) }
    ∧ (s.advance t).enterReplay.mem = s.mem ∧ (s.advance t).enterReplay.frames = s.frames
    ∧ (s.advance t).enterReplay.drift = s.drift := by
  simp [State.enterReplay]

theorem exec_replayFrameStart_shutdown (hshut : s.thm.shutdown = true) :
    exec (.replayFrameStart t) s = .next (s.advance t) := by
  refine if_pos ?_
  rw [advance_thm, hshut, Bool.or_true]

section
variable (hop : s.aux.op = 1) (hidle : s.aux.busySince = none) (hshut : s.thm.shutdown = false)
include hop hidle hshut

theorem exec_replayFrameStart_badHeader (hhead : s.headerOk s.aux.src = false) : ∃ s', exec (.replayFrameStart t) s = .next s'
    ∧ s'.aux.op = 0 ∧ s'.aux.cause = 2 ∧ s'.mem = s.mem := by
  have haux := endReplay_aux (s := s.advance t) hidle 2
  refine ⟨(s.advance t).endReplay 2, ?_, by rw [haux], by rw [haux], endReplay_mem (s := s.advance t) hidle 2⟩
  show execReplayFrameStart t s = _
  simp [execReplayFrameStart, hop, hidle, hshut, hhead]

section
variable (hhead : s.headerOk s.aux.src = true)
include hhead

theorem exec_replayFrameStart_alone (hstream : s.anyStream = false) :
    exec (.replayFrameStart t) s = .next (s.advance t).enterReplay := by
  show execReplayFrameStart t s = _
  simp [execReplayFrameStart, hop, hidle, hshut, hhead, hstream]

theorem exec_replayFrameStart_fits {ts : Time} (hread : s.reading = none) (hbudget : replayBudget ≤ s.pBudget)
    (hlast : s.tick.last = some ts) (hcut : max s.time t + s.replayTime ≤ s.cutOf ts) :
    exec (.replayFrameStart t) s = .next (s.advance t).enterReplay := by
  show execReplayFrameStart t s = _
  simp [execReplayFrameStart, hop, hidle, hshut, hhead, hread, hbudget, hlast, hcut]

theorem exec_replayFrameStart_reading (hstream : s.anyStream = true) (hread : s.reading ≠ none) :
    exec (.replayFrameStart t) s = .next (s.advance t) := by
  show execReplayFrameStart t s = _
  simp [execReplayFrameStart, hop, hidle, hshut, hhead, hstream, hread]
end
end

section
variable {since : Time} (hbusy : s.aux.busySince = some since)
include hbusy

theorem exec_replayFrameDone_early (hlt : max s.time t < since + s.replayTime) :
    exec (.replayFrameDone t) s = .next (s.advance t) := by
  show execReplayFrameDone t s = _
  simp [execReplayFrameDone, hbusy, Nat.not_le.mpr hlt]

theorem exec_replayFrameDone_finishes (hop : s.aux.op = 1) (hle : since + s.replayTime ≤ max s.time t) :
    exec (.replayFrameDone t) s = .next (s.advance t).finishReplay := by
  show execReplayFrameDone t s = _
  simp [execReplayFrameDone, hbusy, hop, hle]
end

/-- The bytes of the result of the source frame at the present place. -/
def resultAt (s : State) (t : Time) : Bytes := ((s.advance t).nodesTo (max s.time t)).replayResult.2

theorem nodesTo_advance_sameShape (s : State) (t at_ : Time) : SameShape s ((s.advance t).nodesTo at_) :=
  sameShape_trans (b := s.advance t) ⟨rfl, fun _ _ _ => rfl⟩ (nodesTo_nodesMove (s.advance t) at_).sameShape

theorem resultAt_length (s : State) (t : Time) : (resultAt s t).length = s.resultBytes :=
  (replayResult_length _).trans (nodesTo_advance_sameShape s t _).resultBytes

theorem resultAt_take (s : State) (t : Time) : (resultAt s t).take 8
    = sliceB 6 6 (s.readMem (replayAddr + s.aux.src) 64) ++ leBytes 1 s.replayTap ++ [0] := by
  rw [resultAt, replayResult_take, (nodesTo_advance_sameShape s t _).tap, nodesTo_aux, State.readMem, nodesTo_mem]
  rfl
end

/-- Settles O23: each command and event by the cases of its outcome. -/
theorem auxiliaryReplayAndCapture : Obligations.AuxiliaryReplayAndCapture := by
  intro t x s a src dst
  refine ⟨fun cam v hsc hin hcam => ⟨fun hstage hshut hslot => ?queued, fun hbusy => ?submitBusy⟩,
    fun j r hq hjob hcap => ⟨fun hstage hshut =>
        exec_auxProcessStart_starts t hq hjob hcap ((auxHeld_false_iff s).mpr ⟨hstage, hshut⟩),
      fun hheld => exec_auxProcessStart_held t hq ((auxHeld_iff s).mpr hheld)⟩,
    fun j slot table cfg hjob => exec_auxFrameDone_stores t hjob,
    fun hsc => ⟨fun hop hroom => congrArg answered (replayCtl_captures (s := a) hsc hop hroom),
      fun hop hroom => congrArg answered (replayCtl_capture_noRoom (s := a) hsc hop hroom),
      fun hop hhead hsrc hdst =>
        ⟨fun hshut hbudget => congrArg answered (replayCtl_replays (s := a) hsc hop hhead hsrc hdst hshut hbudget),
          fun h => congrArg answered (replayCtl_replay_held (s := a) hsc hop hhead hsrc hdst h)⟩,
      fun hop => ⟨congrArg answered (replayCtl_running (s := a) hsc hop (by decide)),
        congrArg answered (replayCtl_running (s := a) hsc hop (by decide))⟩,
      exec_replayStop_ends t hsc, fun hop h => congrArg answered (replayCtl_stops_later (s := a) hsc hop h)⟩,
    exec_replayFrameStart_shutdown t,
    fun hop hidle hshut => ⟨exec_replayFrameStart_badHeader t hop hidle hshut,
      fun hhead hstream => ⟨exec_replayFrameStart_alone t hop hidle hshut hhead hstream, enterReplay_advance t⟩,
      fun ts hhead hread hbudget hlast hcut =>
        ⟨exec_replayFrameStart_fits t hop hidle hshut hhead hread hbudget hlast hcut, enterReplay_advance t⟩,
      exec_replayFrameStart_reading t hop hidle hshut⟩,
    fun since hop hbusy => ⟨exec_replayFrameDone_early t hbusy, fun hle hwf => ?finished⟩⟩
  case queued =>
    exact congrArg answered (auxSubmit_queues (s := a) hsc hin hcam ((auxHeld_false_iff s).mpr ⟨hstage, hshut⟩) hslot)
  case submitBusy =>
    refine congrArg answered (auxSubmit_busy (s := a) hsc hin hcam ?_)
    obtain hstage | hshut | hslot := hbusy
    · exact .inl ((auxHeld_iff s).mpr (.inl hstage))
    · exact .inl ((auxHeld_iff s).mpr (.inr hshut))
    · exact .inr hslot
  case finished =>
    obtain ⟨hdone, hnext⟩ := finishReplay_aux a
    obtain ⟨hdrift, hframes, htiles, htick, hhistory, hheld, houts, hhk⟩ := finishReplay_live a
    have hcells : a.finishReplay.mem.cells = putCells s.mem.cells (replayAddr + s.aux.dst) (resultAt s t) :=
      finishReplay_cells a
    refine ⟨a.finishReplay, exec_replayFrameDone_finishes t hbusy hop hle, hdone, hnext, hdrift, hframes, htiles, htick, hhistory,
      hheld, houts, hhk, resultAt_length s t, resultAt_take s t, ?written, fun n hn => ?frame⟩
    case written =>
      rw [State.readMem, hcells, ← resultAt_length s t]
      exact getCells_putCells hwf _ _
    case frame =>
      rw [← resultAt_length s t] at hn
      rw [hcells]
      exact cellByte_putCells_outside hwf hn

end Sys2Proof.ReplayProofs
end
